-- ==== Sys2Proof/Word.lean ====
section
/-! DEFINITION. The one data width of the machine: the byte. -/

namespace Sys2Proof

/-- A byte: an unsigned integer in 0 .. 255 (00_scope.md section 6). Identifiers, markers, payload elements and the
accumulator are bytes. -/
abbrev Byte := BitVec 8

end Sys2Proof
end

