-- ==== Sys2Proof/Config.lean ====
section
/-! DEFINITION. What is fixed for one parser instance (descriptors, table, markers, capacities) and the free values. -/

namespace Sys2Proof

/-- How a message's end is found (R64): by the end marker, or by a byte count. `sized 0` is also how an unset length is
presented (40_descriptor_table.md section 2). -/
inductive Framing where
  | bounded
  | sized (length : Nat)
deriving DecidableEq, Repr

/-- A descriptor (R64). -/
structure Desc where
  id : Byte
  framing : Framing
  cks : Bool
deriving DecidableEq, Repr

/-- The descriptor table (R10, R35): a finite partial map keyed by the identifier, held as the list of its descriptors.
The canonical form (identifiers strictly rising) is `Sys2Proof.Machine.tableSorted`. -/
abbrev Table := List Desc

/-- A registration request (R65): the operands of `register`. -/
structure Req where
  id : Byte
  framing : Framing
  cks : Bool
deriving DecidableEq, Repr

/-- The configuration of an instance (R23) with the two capacities of the implementation (R11, R12; `none` is the
spec's default, no bound). `stop` is the spec's `END`. -/
structure Config where
  start : Byte
  stop : Byte
  table : Table
  lenMax : Option Nat
  payloadMax : Option Nat
deriving DecidableEq, Repr

/-- The configuration a reset machine holds before the host supplies one. `stop` is R9's default, the table is emptied
by R120, the capacities are the spec's defaults. DESIGN CHOICE (log entry 2): `start` has no default in the spec (R8). -/
def Config.atReset : Config :=
  { start := 0x00, stop := 0x00, table := [], lenMax := none, payloadMax := none }

/-- FREE VALUE (log entry 5): where, among the observers already placed, the next one stands in the delivery order of one
event. R103 leaves the order among observers open. The arguments are the number of the free value and the observer. -/
opaque Config.freeOrder : Nat → Nat → Nat

/-- FREE VALUE (log entry 8): what the payload read port shows for an index at or beyond the payload's length. R60 gives
the read data below the length only. The argument is the number of the free value. -/
opaque Config.freeCell : Nat → Byte

end Sys2Proof
end

