-- ==== Sys2Proof/Syntax.lean ====
section
/-! DEFINITION. The names the spec uses: states, errors, results, the 25 rows of the opcode table, and what the host can
put on the machine's inputs. -/

namespace Sys2Proof

/-- `status` (R15). `other k` is the port-level code 5 + k, none of the five states (R28, R53, R89). -/
inductive Status where
  | idle
  | waitId
  | waitData
  | waitCheckSum
  | waitEoM
  | other (k : Fin 3)
deriving DecidableEq, Repr

/-- The five feed-time error kinds (R105). -/
inductive ErrKind where
  | syncError
  | missingId
  | checksum
  | missingEom
  | formatError
deriving DecidableEq, Repr

/-- The two configuration-time failures (R113). -/
inductive CfgErr where
  | sizeNotSet
  | idAliasing
deriving DecidableEq, Repr

/-- The result of one feed (R71); the observed byte of an error is optional (R112). -/
inductive Result where
  | parsing
  | completed (id : Byte) (payload : List Byte)
  | error (kind : ErrKind) (obs : Option Byte)
deriving DecidableEq, Repr

/-- An event on one of the two surfaces of the Notification Channel (R99). -/
inductive Event where
  | completed (id : Byte) (payload : List Byte)
  | error (kind : ErrKind) (obs : Option Byte)
deriving DecidableEq, Repr

/-- What a `register` call returns (R65, R66, R68). -/
inductive RegResult where
  | ok (d : Desc)
  | err (e : CfgErr)
deriving DecidableEq, Repr

/-- What `BUILD` returns (R70). -/
inductive BuildResult where
  | ok (t : Table)
  | err (e : CfgErr)
deriving DecidableEq, Repr

/-- The seventeen rows T1 to T17 of the byte decode (R50). -/
inductive Row where
  | idleSom | idleSync
  | idHitSized | idHitBounded | idMiss
  | dataSizedMore | dataSizedLastCk | dataSizedLastNock
  | dataBoundedMore | dataBoundedTermCk | dataBoundedTermNock
  | cksMatchSized | cksMatchBounded | cksMismatch
  | eomMatch | eomMismatch
  | default
deriving DecidableEq, Repr

/-- The instructions: one constructor per row of spec/opcode_table.json. A feed transition carries the fed byte `b`. -/
inductive Instr where
  /-- T1, R72 -/
  | idleSom (b : Byte)
  /-- T2, R73 -/
  | idleSync (b : Byte)
  /-- T3, R74 -/
  | idHitSized (b : Byte)
  /-- T4, R75 -/
  | idHitBounded (b : Byte)
  /-- T5, R76 -/
  | idMiss (b : Byte)
  /-- T6, R78 -/
  | dataSizedMore (b : Byte)
  /-- T7, R79 -/
  | dataSizedLastCk (b : Byte)
  /-- T8, R80 -/
  | dataSizedLastNock (b : Byte)
  /-- T9, R81 -/
  | dataBoundedMore (b : Byte)
  /-- T10, R82 -/
  | dataBoundedTermCk (b : Byte)
  /-- T11, R83 -/
  | dataBoundedTermNock (b : Byte)
  /-- T12, R84 -/
  | cksMatchSized (b : Byte)
  /-- T13, R85 -/
  | cksMatchBounded (b : Byte)
  /-- T14, R86 -/
  | cksMismatch (b : Byte)
  /-- T15, R87 -/
  | eomMatch (b : Byte)
  /-- T16, R88 -/
  | eomMismatch (b : Byte)
  /-- T17, R89 -/
  | default (b : Byte)
  /-- R71 -/
  | feed (b : Byte)
  /-- R65 -/
  | registerOk (id : Byte) (framing : Framing) (cks : Bool)
  /-- R66 -/
  | registerSizeNotSet (id : Byte) (framing : Framing) (cks : Bool)
  /-- R68 -/
  | registerIdAliasing (id : Byte) (framing : Framing) (cks : Bool)
  /-- R67 -/
  | registerRefused (id : Byte) (framing : Framing) (cks : Bool)
  /-- R69 -/
  | lookup (id : Byte)
  /-- R70 -/
  | build (reqs : List Req)
  /-- R120 -/
  | reset
deriving DecidableEq, Repr

/-- The input pins of one rising clock edge (R58, R60, R61). `regLen` is the `LEN_W`-bit unsigned `reg_len`.
`plRaddr` is `none` in a cycle in which no consumer looks at the payload read port. -/
structure Pins where
  rst : Bool := false
  inValid : Bool := false
  inByte : Byte := 0
  regValid : Bool := false
  regId : Byte := 0
  regSized : Bool := false
  regLen : Nat := 0
  regCks : Bool := false
  plRaddr : Option Nat := none
deriving DecidableEq, Repr

/-- What the host does next. The calls are the abstract interface (R6, R71, R65, R69, R70, R120, R125, R103); `cycle` is
one clock edge of the port level (R58); `overlap` is a launch of unserialised feeds (R128). -/
inductive Input where
  | byte (b : Byte)
  | register (r : Req)
  | lookup (id : Byte)
  | build (reqs : List Req)
  | reset
  | markers (start stop : Byte)
  | subscribe
  | overlap (bs : List Byte)
  | cycle (p : Pins)
deriving DecidableEq, Repr

/-- What the decoder looks at beside the input (R50, R71): the configuration, the phase and the session fields that steer
a transition. -/
structure View where
  cfg : Config
  started : Bool
  status : Status
  remaining : Nat
  cks : Byte
  sel : Option Desc
deriving DecidableEq, Repr

/-- Why the decoder rejects an input. Each is turned into the refusal of the same name. -/
inductive Reject where
  /-- A `WaitData` or `WaitCheckSum` state without the descriptor it needs, or a `Sized` countdown already at 0
  (D22, U6). -/
  | corruptState
  /-- `reg_valid` and `in_valid` both 1 in a setup cycle (R61). -/
  | simultaneousPorts
  /-- Two or more feeds launched without serialisation (R128). -/
  | overlappingFeeds
deriving DecidableEq, Repr

/-- What an input decodes to: an instruction, a cycle that changes nothing (R58), one of the two setup acts that no row of
the opcode table names (R125), or a rejection by name. -/
inductive Decoded where
  | instr (i : Instr)
  | hold
  | markers (start stop : Byte)
  | subscribe
  | reject (r : Reject)
deriving DecidableEq, Repr

end Sys2Proof
end

