-- ==== Sys2Proof/WellFormed.lean ====
section
/-! DEFINITION. Which instruction terms a row of the opcode table admits: the part of a row's predicate that its operands
alone decide. -/

namespace Sys2Proof

/-- Well-formed instructions. Every byte is legal in every transition (R52). The registration rows restrict the framing:
`REGISTER.SIZENOTSET` is the unset length (R66), `REGISTER.OK` and `REGISTER.IDALIASING` are not (R65, R68), and
`REGISTER.REFUSED` needs a positive `Sized` length (R67). `BUILD` takes any list of requests (R70). -/
def Instr.wf : Instr → Bool
  | .idleSom _ => true
  | .idleSync _ => true
  | .idHitSized _ => true
  | .idHitBounded _ => true
  | .idMiss _ => true
  | .dataSizedMore _ => true
  | .dataSizedLastCk _ => true
  | .dataSizedLastNock _ => true
  | .dataBoundedMore _ => true
  | .dataBoundedTermCk _ => true
  | .dataBoundedTermNock _ => true
  | .cksMatchSized _ => true
  | .cksMatchBounded _ => true
  | .cksMismatch _ => true
  | .eomMatch _ => true
  | .eomMismatch _ => true
  | .default _ => true
  | .feed _ => true
  | .registerOk _ f _ => f != .sized 0
  | .registerSizeNotSet _ f _ => f == .sized 0
  | .registerIdAliasing _ f _ => f != .sized 0
  | .registerRefused _ f _ => f != .sized 0 && f != .bounded
  | .lookup _ => true
  | .build _ => true
  | .reset => true

end Sys2Proof
end

