-- ==== Sys2Proof/Decode.lean ====
section
/-! DEFINITION. The decoder: which row of the opcode table an input selects in a given view of the machine, total and
rejecting by name; the registration cases it needs; and the encoder. -/

namespace Sys2Proof

/-- `TableRead(i)` (R36), which is `LOOKUP` (R69): total, no side effect, `none` for an unknown identifier. -/
def tableRead : Table → Byte → Option Desc
  | [], _ => none
  | d :: ds, i => if d.id == i then some d else tableRead ds i

/-- A `Sized` framing with length 0, which is also the unset length (R66). Never raised for `Bounded`. -/
def Framing.unset : Framing → Bool
  | .bounded => false
  | .sized n => n == 0

/-- A number within an optional bound; `none` is no bound (R11, R12). -/
def withinBound (bound : Option Nat) (n : Nat) : Bool :=
  match bound with
  | none => true
  | some m => decide (n ≤ m)

/-- Whether the implementation can hold a framing's length (R67): `Sized(n)` needs n within `LEN_MAX` and within
`PAYLOAD_MAX` (R34); `Bounded` carries no length. -/
def lengthHeld (cfg : Config) : Framing → Bool
  | .bounded => true
  | .sized n => withinBound cfg.lenMax n && withinBound cfg.payloadMax n

/-- The four outcomes of `REGISTER` (R65 to R68). -/
inductive RegCase where
  | ok
  | sizeNotSet
  | idAliasing
  | tooLong
deriving DecidableEq, Repr

/-- Which outcome a request has on a table, tested in the order R66, R67, R68, R65: R115 puts R66 before R68. DESIGN CHOICE
(log entry 15): R67 stands before R68. -/
def registerCase (cfg : Config) (t : Table) (r : Req) : RegCase :=
  if r.framing.unset then .sizeNotSet
  else if !lengthHeld cfg r.framing then .tooLong
  else match tableRead t r.id with
    | some _ => .idAliasing
    | none => .ok

/-- The opcode-table row of a registration outcome. -/
def registerInstr (c : RegCase) (r : Req) : Instr :=
  match c with
  | .ok => .registerOk r.id r.framing r.cks
  | .sizeNotSet => .registerSizeNotSet r.id r.framing r.cks
  | .idAliasing => .registerIdAliasing r.id r.framing r.cks
  | .tooLong => .registerRefused r.id r.framing r.cks

/-- The byte decode in `WaitData` (R71): `none` for a state D22 gives no meaning, no selected descriptor or a `Sized`
countdown that is already 0 (which the truncated subtraction would otherwise read as the last byte). -/
def selectData (v : View) (b : Byte) : Option Row :=
  match v.sel with
  | none => none
  | some d =>
    match d.framing with
    | .sized _ =>
      if v.remaining == 0 then none
      else if v.remaining - 1 != 0 then some .dataSizedMore
      else if d.cks then some .dataSizedLastCk
      else some .dataSizedLastNock
    | .bounded =>
      if b != v.cfg.stop then some .dataBoundedMore
      else if d.cks then some .dataBoundedTermCk
      else some .dataBoundedTermNock

/-- The byte decode in `WaitCheckSum` (R71): the framing is looked at only when the byte matches. -/
def selectCheckSum (v : View) (b : Byte) : Option Row :=
  if b == v.cks then
    match v.sel with
    | none => none
    | some d =>
      match d.framing with
      | .sized _ => some .cksMatchSized
      | .bounded => some .cksMatchBounded
  else some .cksMismatch

/-- The byte decode (R50, R71): by status first, then by one predicate. -/
def selectRow (v : View) (b : Byte) : Option Row :=
  match v.status with
  | .idle => if b == v.cfg.start then some .idleSom else some .idleSync
  | .waitId =>
    match tableRead v.cfg.table b with
    | some d =>
      match d.framing with
      | .sized _ => some .idHitSized
      | .bounded => some .idHitBounded
    | none => some .idMiss
  | .waitData => selectData v b
  | .waitCheckSum => selectCheckSum v b
  | .waitEoM => if b == v.cfg.stop then some .eomMatch else some .eomMismatch
  | .other _ => some .default

/-- A row and the fed byte as an instruction. -/
def Row.instr : Row → Byte → Instr
  | .idleSom, b => .idleSom b
  | .idleSync, b => .idleSync b
  | .idHitSized, b => .idHitSized b
  | .idHitBounded, b => .idHitBounded b
  | .idMiss, b => .idMiss b
  | .dataSizedMore, b => .dataSizedMore b
  | .dataSizedLastCk, b => .dataSizedLastCk b
  | .dataSizedLastNock, b => .dataSizedLastNock b
  | .dataBoundedMore, b => .dataBoundedMore b
  | .dataBoundedTermCk, b => .dataBoundedTermCk b
  | .dataBoundedTermNock, b => .dataBoundedTermNock b
  | .cksMatchSized, b => .cksMatchSized b
  | .cksMatchBounded, b => .cksMatchBounded b
  | .cksMismatch, b => .cksMismatch b
  | .eomMatch, b => .eomMatch b
  | .eomMismatch, b => .eomMismatch b
  | .default, b => .default b

/-- A stream byte as the row it selects. -/
def decodeByte (v : View) (b : Byte) : Decoded :=
  match selectRow v b with
  | some r => .instr (r.instr b)
  | none => .reject .corruptState

/-- The framing on the registration port (R61): for `Bounded` any length presented is ignored (R65). -/
def pinFraming (sized : Bool) (len : Nat) : Framing :=
  if sized then .sized len else .bounded

/-- The request on the registration port (R61). -/
def Pins.req (p : Pins) : Req :=
  { id := p.regId, framing := pinFraming p.regSized p.regLen, cks := p.regCks }

/-- One clock edge (R58, R61, R120): `rst` first; a feed when `in_valid`; a registration when `reg_valid` in setup, where
the two together are the host's breach; after the first feed the registration port is ignored; otherwise nothing. -/
def decodeCycle (v : View) (p : Pins) : Decoded :=
  if p.rst then .instr .reset
  else if p.regValid && !v.started then
    if p.inValid then .reject .simultaneousPorts
    else .instr (registerInstr (registerCase v.cfg v.cfg.table p.req) p.req)
  else if p.inValid then .instr (.feed p.inByte)
  else .hold

/-- The decoder, total on every input in every view. -/
def decode (v : View) : Input → Decoded
  | .byte b => decodeByte v b
  | .register r => .instr (registerInstr (registerCase v.cfg v.cfg.table r) r)
  | .lookup i => .instr (.lookup i)
  | .build rs => .instr (.build rs)
  | .reset => .instr .reset
  | .markers a z => .markers a z
  | .subscribe => .subscribe
  | .overlap _ => .reject .overlappingFeeds
  | .cycle p => decodeCycle v p

/-- A registration request on the port (R61); for `Bounded` the length is driven to 0 (R56). -/
def encodeRegister (id : Byte) (f : Framing) (cks : Bool) : Input :=
  match f with
  | .bounded => .cycle { regValid := true, regId := id, regSized := false, regLen := 0, regCks := cks }
  | .sized n => .cycle { regValid := true, regId := id, regSized := true, regLen := n, regCks := cks }

/-- The encoder. A transition is its byte `bbbbbbbb` (R50); FEED, the registrations and RESET are clock edges with the
signals of R58, R61 and R120; LOOKUP and BUILD have no encoding beside the call itself (R69, R70). -/
def encode : Instr → Input
  | .idleSom b => .byte b
  | .idleSync b => .byte b
  | .idHitSized b => .byte b
  | .idHitBounded b => .byte b
  | .idMiss b => .byte b
  | .dataSizedMore b => .byte b
  | .dataSizedLastCk b => .byte b
  | .dataSizedLastNock b => .byte b
  | .dataBoundedMore b => .byte b
  | .dataBoundedTermCk b => .byte b
  | .dataBoundedTermNock b => .byte b
  | .cksMatchSized b => .byte b
  | .cksMatchBounded b => .byte b
  | .cksMismatch b => .byte b
  | .eomMatch b => .byte b
  | .eomMismatch b => .byte b
  | .default b => .byte b
  | .feed b => .cycle { inValid := true, inByte := b }
  | .registerOk id f c => encodeRegister id f c
  | .registerSizeNotSet id f c => encodeRegister id f c
  | .registerIdAliasing id f c => encodeRegister id f c
  | .registerRefused id f c => encodeRegister id f c
  | .lookup id => .lookup id
  | .build rs => .build rs
  | .reset => .cycle { rst := true }

/-- The spec's label of each row (R50, R63), letter for letter as spec/opcode_table.json has it. -/
def Instr.mnemonic : Instr → String
  | .idleSom _ => "IDLE.SOM"
  | .idleSync _ => "IDLE.SYNC"
  | .idHitSized _ => "ID.HIT.SIZED"
  | .idHitBounded _ => "ID.HIT.BOUNDED"
  | .idMiss _ => "ID.MISS"
  | .dataSizedMore _ => "DATA.SIZED.MORE"
  | .dataSizedLastCk _ => "DATA.SIZED.LAST.CK"
  | .dataSizedLastNock _ => "DATA.SIZED.LAST.NOCK"
  | .dataBoundedMore _ => "DATA.BOUNDED.MORE"
  | .dataBoundedTermCk _ => "DATA.BOUNDED.TERM.CK"
  | .dataBoundedTermNock _ => "DATA.BOUNDED.TERM.NOCK"
  | .cksMatchSized _ => "CKS.MATCH.SIZED"
  | .cksMatchBounded _ => "CKS.MATCH.BOUNDED"
  | .cksMismatch _ => "CKS.MISMATCH"
  | .eomMatch _ => "EOM.MATCH"
  | .eomMismatch _ => "EOM.MISMATCH"
  | .default _ => "DEFAULT"
  | .feed _ => "FEED"
  | .registerOk _ _ _ => "REGISTER.OK"
  | .registerSizeNotSet _ _ _ => "REGISTER.SIZENOTSET"
  | .registerIdAliasing _ _ _ => "REGISTER.IDALIASING"
  | .registerRefused _ _ _ => "REGISTER.REFUSED"
  | .lookup _ => "LOOKUP"
  | .build _ => "BUILD"
  | .reset => "RESET"

/-- What the decoder sees right after reset (R27, R120). -/
def resetView : View :=
  { cfg := Config.atReset, started := false, status := .idle, remaining := 0, cks := 0, sel := none }

/-- The instruction the decoder reads, right after reset, from a table word of `nbits` bits. The only words the table has
are the single stream bytes `bbbbbbbb` (R50); an operation row has no stream encoding and so no word. -/
def decodeTableWord (nbits w : Nat) : Option Instr :=
  if nbits == 8 && decide (w < 256) then
    match decode resetView (.byte (BitVec.ofNat 8 w)) with
    | .instr i => some i
    | _ => none
  else none

end Sys2Proof
end

