-- ==== Sys2Proof/Machine/State.lean ====
section
/-! DEFINITION. The machine's state as plain data, the reasons a step can stop, and the state after reset. -/

namespace Sys2Proof.Machine

/-- What one step answers and announces: the outputs of one feed, call or clock edge, which the spec keeps out of the
machine's state (R24, log entry 4). No step reads it; every step overwrites the whole of it. -/
structure Output where
  /-- The result of a feed (R71); `none` when the step was no feed. -/
  result : Option Result := none
  /-- The event that the Notification Channel fired (R100). -/
  event : Option Event := none
  /-- Which observer was served with which event, in the order of delivery (R101, R103). -/
  deliveries : List (Nat × Event) := []
  /-- The outcome of a registration (R65, R66, R68). -/
  reg : Option RegResult := none
  /-- The answer of a lookup (R69). -/
  found : Option (Option Desc) := none
  /-- The outcome of a build (R70). -/
  built : Option BuildResult := none
  /-- `pl_rdata` of a clock edge in which the read port was used (R60). -/
  rdata : Option Byte := none
deriving DecidableEq, Repr

/-- The state: the Parse Session State (R14), the instance's configuration (R23), the phase (R61, R119), the number of
observers (R103), and the model's own fields `out`, `input` and `free`. -/
structure State where
  status : Status
  payload : List Byte
  remaining : Nat
  cks : Byte
  sel : Option Desc
  cfg : Config
  /-- `started_q` (R61): false in setup, true from the first feed on (R119). -/
  started : Bool
  observers : Nat
  out : Output
  /-- What the host does next, oldest first. -/
  input : List Input
  /-- How many free values have been used. -/
  free : Nat
deriving DecidableEq, Repr

/-- Faults: none. No byte makes the machine trap or halt (R52), every error is a result with a next state (R105), and no
address can be wrong (R39, R41, R43). -/
inductive Fault where
deriving DecidableEq, Repr

/-- Why the model gives a step no meaning. All but `notSelected` are launches to which the spec itself gives none; all are
safe (the model stops where an implementation may go on). -/
inductive Refusal where
  /-- Raised by `exec` alone, for an instruction that has no meaning yet. Safe. -/
  | notModelled (mnemonic : String)
  /-- Raised by a row's meaning when the row's condition does not hold, so that another row is the selected one (R50, R71).
  `step` never raises it: the decoder gives the selected row. Safe. -/
  | notSelected
  /-- Raised by every feed under a configuration that is not valid (R23, U10). Safe. -/
  | invalidConfig
  /-- Raised by a feed that needs the selected descriptor or a positive countdown where the state has none (U6, D22). Safe. -/
  | corruptState
  /-- Raised by a `WaitData` feed that would exceed a finite `PAYLOAD_MAX` (R34). Safe. -/
  | payloadOverflow
  /-- Raised by REGISTER and BUILD for a length the implementation cannot hold (R67). Safe. -/
  | lengthTooLong
  /-- Raised by REGISTER and BUILD during parsing (R37, R119). Safe. -/
  | tableWriteWhileParsing
  /-- Raised when the host changes a marker during parsing (R124). Safe. -/
  | markerChangeWhileParsing
  /-- Raised when an observer subscribes during parsing (R103, D18). Safe. -/
  | subscribeWhileParsing
  /-- Raised by a setup clock edge with `reg_valid` and `in_valid` both 1 (R61). Safe. -/
  | simultaneousPorts
  /-- Raised by a launch of unserialised feeds (R128). Safe. -/
  | overlappingFeeds
deriving DecidableEq, Repr

/-- What a meaning answers. -/
abbrev StepOut := Host.Outcome State Fault Refusal

/-- The machine after reset (R27, R120). DESIGN CHOICE: the marker `start` (log entry 2), no observers (log entry 9), the free
values counted from 0 (log entry 5). Nothing is placed on the inputs. -/
def State.reset : State :=
  { status := .idle
    payload := []
    remaining := 0
    cks := 0
    sel := none
    cfg := Config.atReset
    started := false
    observers := 0
    out := {}
    input := []
    free := 0 }

end Sys2Proof.Machine
end

