-- ==== Sys2Proof/Machine/Flags.lean ====
section
/-! DEFINITION. The machine has no flags (R25, R98). What it computes instead: the checksum (R91, R92) and the countdown
(R97). -/

namespace Sys2Proof.Machine

/-- The checksum of a payload (R91): the sum of its bytes over the naturals, reduced modulo 256. -/
def checksum (p : List Byte) : Byte := BitVec.ofNat 8 ((p.map BitVec.toNat).sum)

/-- One accumulation step (R92): 8-bit wrapping addition, the carry dropped. -/
def checksumStep (cks b : Byte) : Byte := cks + b

/-- The decremented countdown (R97), tested after the decrement; read only where the countdown is at least 1. -/
def countdown (remaining : Nat) : Nat := remaining - 1

/-- The countdown has not reached zero after this byte (R78). -/
def moreExpected (remaining : Nat) : Bool := remaining != 0 && countdown remaining != 0

/-- This byte is the last of a `Sized` payload (R79, R80). -/
def lastExpected (remaining : Nat) : Bool := remaining != 0 && countdown remaining == 0

end Sys2Proof.Machine
end

