-- ==== Sys2Proof/Machine/Notify.lean ====
section
/-! DEFINITION. The Notification Channel (R99 to R103). -/

namespace Sys2Proof.Machine

/-- The event of a result (R100, R102): the same information, and none for `Parsing`. -/
def eventOf : Result → Option Event
  | .parsing => none
  | .completed i p => some (.completed i p)
  | .error k o => some (.error k o)

/-- Places `x` at a position of a list; a position beyond the end is the end. -/
def insertAt (x : Nat) : List Nat → Nat → List Nat
  | [], _ => [x]
  | y :: ys, 0 => x :: y :: ys
  | y :: ys, p + 1 => y :: insertAt x ys p

/-- The order in which `n` observers are served with the event that uses free value `k`: each observer once, in an order
that the spec leaves open (R103, log entry 5). -/
def observerOrder (k : Nat) : Nat → List Nat
  | 0 => []
  | n + 1 => insertAt n (observerOrder k n) (Config.freeOrder k n)

/-- All deliveries of one event, made before the feed returns (R101). -/
def deliver (k n : Nat) : Option Event → List (Nat × Event)
  | none => []
  | some e => (observerOrder k n).map (fun o => (o, e))

end Sys2Proof.Machine
end

