-- ==== Sys2Proof/Machine/Operands.lean ====
section
/-! DEFINITION. The machine's operand forms (R51) and its byte comparisons (R95). -/

namespace Sys2Proof.Machine

/-- The length operand: what `WaitId` loads into the countdown (R51 (b), R74, R75). -/
def lengthOperand : Framing → Nat
  | .sized n => n
  | .bounded => 0

/-- Whether a framing is `Sized` (R84, R85: the kind of `sel.framing`). -/
def isSized : Framing → Bool
  | .sized _ => true
  | .bounded => false

/-- Whether the fed byte is the start marker (R72); tested in `Idle` only (R90 (c)). -/
def isStart (b : Byte) (s : State) : Bool := b == s.cfg.start

/-- Whether the fed byte is the end marker (R95). -/
def isStop (b : Byte) (s : State) : Bool := b == s.cfg.stop

/-- Whether the fed byte is the transmitted checksum that the accumulator holds (R51 (c), R95). -/
def isChecksum (b : Byte) (s : State) : Bool := b == s.cks

/-- Whether the selected descriptor satisfies a test; false where none is selected. -/
def selSatisfies (p : Desc → Bool) (s : State) : Bool :=
  match s.sel with
  | some d => p d
  | none => false

/-- `sel.framing = Sized(_)`. -/
def selSized (s : State) : Bool := selSatisfies (fun d => isSized d.framing) s

/-- `sel.framing = Bounded`. -/
def selBounded (s : State) : Bool := selSatisfies (fun d => !isSized d.framing) s

/-- `sel.cks`. -/
def selChecks (s : State) : Bool := selSatisfies (fun d => d.cks) s

end Sys2Proof.Machine
end

