-- ==== Sys2Proof/Machine/Ops.lean ====
section
/-! DEFINITION. The named operations over the two storages and the session state: the spec's pseudocode primitives
(00_scope.md section 6), error entry, completion, and the frame of a feed transition. -/

namespace Sys2Proof.Machine

/-- What the decoder sees of a state. -/
def State.view (s : State) : View :=
  { cfg := s.cfg, started := s.started, status := s.status, remaining := s.remaining, cks := s.cks, sel := s.sel }

/-! ### The descriptor table -/

/-- The canonical form of a table: identifiers strictly rising, so all distinct (R35, R64). -/
def tableSorted : Table → Bool
  | [] => true
  | d :: ds => ds.all (fun e => decide (d.id < e.id)) && tableSorted ds

/-- A configuration is valid (R23, R64): distinct identifiers, and every `Sized` length positive. -/
def configValid (cfg : Config) : Bool :=
  tableSorted cfg.table && cfg.table.all (fun d => !d.framing.unset)

/-- `TABLE[id := d]` for an identifier not in the table (R65), kept in canonical form. -/
def tableInsert (d : Desc) : Table → Table
  | [] => [d]
  | e :: es => if d.id < e.id then d :: e :: es else e :: tableInsert d es

/-! ### The payload buffer -/

/-- `PayloadClear()` (R32). -/
def payloadClear (s : State) : State := { s with payload := [] }

/-- `PayloadAppend(b)` (R32). -/
def payloadAppend (b : Byte) (s : State) : State := { s with payload := s.payload ++ [b] }

/-- `PayloadRead(i)` (R33): the element at an index below the length; nothing is there at or beyond it (R31). -/
def payloadRead (s : State) (i : Nat) : Option Byte := s.payload[i]?

/-- Whether one more byte fits a finite buffer (R34). -/
def payloadFits (s : State) : Bool := withinBound s.cfg.payloadMax (s.payload.length + 1)

/-! ### The end of a feed -/

/-- The outputs of a feed with result `r` that uses free value `k` for `n` observers (R71, R100). -/
def feedOutput (k n : Nat) (r : Result) : Output :=
  { result := some r, event := eventOf r, deliveries := deliver k n (eventOf r) }

/-- How many free values a result's notification uses: one for an event, none for `Parsing`. -/
def freeUsed (r : Result) : Nat :=
  match eventOf r with
  | none => 0
  | some _ => 1

/-- Ends a feed with its result: the event fires, and the setup phase is over (R61, R119). -/
def finishFeed (r : Result) (s : State) : State :=
  { s with started := true, out := feedOutput s.free s.observers r, free := s.free + freeUsed r }

/-- Error entry, `raise E(obs)` (R111): the result, `status <- Idle`, `sel <- none`, and nothing else. The return from an
error is T1 itself (R116); there is no other. -/
def raiseError (k : ErrKind) (obs : Option Byte) (s : State) : StepOut :=
  .next (finishFeed (.error k obs) { s with status := .idle, sel := none })

/-- Completion (R84, R87): the result carries a snapshot of the payload (R22), `status <- Idle`, `sel <- none`. Without a
selected descriptor there is no identifier to report (U6). -/
def completeMessage (s : State) : StepOut :=
  match s.sel with
  | none => .refused .corruptState
  | some d => .next (finishFeed (.completed d.id s.payload) { s with status := .idle, sel := none })

/-- The common part of every `WaitData` transition (R77): append, and accumulate where the descriptor asks for it. -/
def accumulate (b : Byte) (s : State) : State :=
  { payloadAppend b s with cks := if selChecks s then checksumStep s.cks b else s.cks }

/-- A feed transition: meant only under a valid configuration (R23) and where the row's condition holds (R50). -/
def transition (cond : Bool) (s : State) (body : StepOut) : StepOut :=
  if configValid s.cfg then (if cond then body else .refused .notSelected)
  else .refused .invalidConfig

/-- A `WaitData` transition: the common part, then `next` writes what the row adds. -/
def dataTransition (cond : Bool) (b : Byte) (s : State) (next : State → State) : StepOut :=
  transition (s.status == .waitData && cond) s
    (if payloadFits s then .next (finishFeed .parsing (next (accumulate b s))) else .refused .payloadOverflow)

/-- Selecting a descriptor (R74, R75). -/
def selectDescriptor (d : Desc) (s : State) : State :=
  { s with sel := some d, remaining := lengthOperand d.framing, status := .waitData }

/-- The `WaitId` transitions that find the identifier, for a framing test. -/
def identify (want : Framing → Bool) (b : Byte) (s : State) : StepOut :=
  match tableRead s.cfg.table b with
  | none => transition false s (.refused .notSelected)
  | some d =>
    transition (s.status == .waitId && want d.framing) s (.next (finishFeed .parsing (selectDescriptor d s)))

/-! ### Steps that are no feed -/

/-- A step in which nothing is fed (R58 with `in_valid = 0`, R137): the machine holds its state and answers nothing. -/
def hold (s : State) : State := { s with out := {} }

/-- The host fixes the two markers (R125): free in setup, and held constant from the first feed on (R124). -/
def fixMarkers (start stop : Byte) (s : State) : StepOut :=
  if s.started then
    if start == s.cfg.start && stop == s.cfg.stop then .next (hold s) else .refused .markerChangeWhileParsing
  else .next (hold { s with cfg := { s.cfg with start := start, stop := stop } })

/-- One more observer subscribes (R103), before the first feed (D18). -/
def subscribe (s : State) : StepOut :=
  if s.started then .refused .subscribeWhileParsing else .next (hold { s with observers := s.observers + 1 })

/-- The refusal of a rejected input. -/
def refusalOf : Reject → Refusal
  | .corruptState => .corruptState
  | .simultaneousPorts => .simultaneousPorts
  | .overlappingFeeds => .overlappingFeeds

/-- A table write in setup (R37): in parsing it has no meaning. -/
def inSetup (s : State) (body : StepOut) : StepOut :=
  if s.started then .refused .tableWriteWhileParsing else body

/-- A registration row: its outcome happens where the request has that case (R115). -/
def registration (want : RegCase) (r : Req) (s : State) (body : StepOut) : StepOut :=
  inSetup s (if registerCase s.cfg s.cfg.table r == want then body else .refused .notSelected)

end Sys2Proof.Machine
end

