-- ==== Sys2Proof/Machine/CheckSum.lean ====
section
/-! DEFINITION. The transitions from `WaitCheckSum` (R84 to R86). The checksum byte is neither appended nor summed. -/

namespace Sys2Proof.Machine

/-- T12 `CKS.MATCH.SIZED` (R84). -/
def execCksMatchSized (b : Byte) (s : State) : StepOut :=
  transition (s.status == .waitCheckSum && isChecksum b s && selSized s) s (completeMessage s)

/-- T13 `CKS.MATCH.BOUNDED` (R85). -/
def execCksMatchBounded (b : Byte) (s : State) : StepOut :=
  transition (s.status == .waitCheckSum && isChecksum b s && selBounded s) s
    (.next (finishFeed .parsing { s with status := .waitEoM }))

/-- T14 `CKS.MISMATCH` (R86): the observed byte is the fed one, under either framing. -/
def execCksMismatch (b : Byte) (s : State) : StepOut :=
  transition (s.status == .waitCheckSum && !isChecksum b s) s (raiseError .checksum (some b) s)

end Sys2Proof.Machine
end

