-- ==== Sys2Proof/Machine/Data.lean ====
section
/-! DEFINITION. The transitions from `WaitData` (R77 to R83). -/

namespace Sys2Proof.Machine

/-- T6 `DATA.SIZED.MORE` (R78). -/
def execDataSizedMore (b : Byte) (s : State) : StepOut :=
  dataTransition (selSized s && moreExpected s.remaining) b s
    (fun t => { t with remaining := countdown t.remaining })

/-- T7 `DATA.SIZED.LAST.CK` (R79). -/
def execDataSizedLastCk (b : Byte) (s : State) : StepOut :=
  dataTransition (selSized s && lastExpected s.remaining && selChecks s) b s
    (fun t => { t with remaining := countdown t.remaining, status := .waitCheckSum })

/-- T8 `DATA.SIZED.LAST.NOCK` (R80). -/
def execDataSizedLastNock (b : Byte) (s : State) : StepOut :=
  dataTransition (selSized s && lastExpected s.remaining && !selChecks s) b s
    (fun t => { t with remaining := countdown t.remaining, status := .waitEoM })

/-- T9 `DATA.BOUNDED.MORE` (R81). -/
def execDataBoundedMore (b : Byte) (s : State) : StepOut :=
  dataTransition (selBounded s && !isStop b s) b s (fun t => t)

/-- T10 `DATA.BOUNDED.TERM.CK` (R82): the terminator is appended and summed (C2). -/
def execDataBoundedTermCk (b : Byte) (s : State) : StepOut :=
  dataTransition (selBounded s && isStop b s && selChecks s) b s (fun t => { t with status := .waitCheckSum })

/-- T11 `DATA.BOUNDED.TERM.NOCK` (R83): the message is not complete yet (C1). -/
def execDataBoundedTermNock (b : Byte) (s : State) : StepOut :=
  dataTransition (selBounded s && isStop b s && !selChecks s) b s (fun t => { t with status := .waitEoM })

end Sys2Proof.Machine
end

