-- ==== Sys2Proof/Machine/EndOfMessage.lean ====
section
/-! DEFINITION. The transitions from `WaitEoM` (R87, R88) and the defensive transition (R89). -/

namespace Sys2Proof.Machine

/-- T15 `EOM.MATCH` (R87): the end-of-message byte is not appended. -/
def execEomMatch (b : Byte) (s : State) : StepOut :=
  transition (s.status == .waitEoM && isStop b s) s (completeMessage s)

/-- T16 `EOM.MISMATCH` (R88). -/
def execEomMismatch (b : Byte) (s : State) : StepOut :=
  transition (s.status == .waitEoM && !isStop b s) s (raiseError .missingEom (some b) s)

/-- Whether a status is none of the five (R89). -/
def outsideStates : Status → Bool
  | .other _ => true
  | _ => false

/-- T17 `DEFAULT` (R89). -/
def execDefault (b : Byte) (s : State) : StepOut :=
  transition (outsideStates s.status) s (raiseError .formatError (some b) s)

end Sys2Proof.Machine
end

