-- ==== Sys2Proof/Machine/Identifier.lean ====
section
/-! DEFINITION. The transitions from `WaitId` (R74 to R76). The identifier byte is looked up whole (R51 (a)); it is neither
appended nor summed. -/

namespace Sys2Proof.Machine

/-- T3 `ID.HIT.SIZED` (R74). -/
def execIdHitSized (b : Byte) (s : State) : StepOut := identify isSized b s

/-- T4 `ID.HIT.BOUNDED` (R75). -/
def execIdHitBounded (b : Byte) (s : State) : StepOut := identify (fun f => !isSized f) b s

/-- T5 `ID.MISS` (R76): the unknown identifier is not reported. -/
def execIdMiss (b : Byte) (s : State) : StepOut :=
  transition (s.status == .waitId && (tableRead s.cfg.table b).isNone) s (raiseError .missingId none s)

end Sys2Proof.Machine
end

