-- ==== Sys2Proof/Machine/Idle.lean ====
section
/-! DEFINITION. The transitions from `Idle` (R72, R73). -/

namespace Sys2Proof.Machine

/-- T1 `IDLE.SOM` (R72): the only transition that clears payload, accumulator and countdown (R21). -/
def execIdleSom (b : Byte) (s : State) : StepOut :=
  transition (s.status == .idle && isStart b s) s
    (.next (finishFeed .parsing { payloadClear s with cks := 0, remaining := 0, status := .waitId }))

/-- T2 `IDLE.SYNC` (R73): the error carries no byte and writes no session field. -/
def execIdleSync (b : Byte) (s : State) : StepOut :=
  transition (s.status == .idle && !isStart b s) s (.next (finishFeed (.error .syncError none) s))

end Sys2Proof.Machine
end

