-- ==== Sys2Proof/Machine/Feed.lean ====
section
/-! DEFINITION. FEED (R71): the dispatcher over the seventeen transitions. -/

namespace Sys2Proof.Machine

/-- The meaning of the row a byte selected. -/
def execRow (r : Row) (b : Byte) (s : State) : StepOut :=
  match r with
  | .idleSom => execIdleSom b s
  | .idleSync => execIdleSync b s
  | .idHitSized => execIdHitSized b s
  | .idHitBounded => execIdHitBounded b s
  | .idMiss => execIdMiss b s
  | .dataSizedMore => execDataSizedMore b s
  | .dataSizedLastCk => execDataSizedLastCk b s
  | .dataSizedLastNock => execDataSizedLastNock b s
  | .dataBoundedMore => execDataBoundedMore b s
  | .dataBoundedTermCk => execDataBoundedTermCk b s
  | .dataBoundedTermNock => execDataBoundedTermNock b s
  | .cksMatchSized => execCksMatchSized b s
  | .cksMatchBounded => execCksMatchBounded b s
  | .cksMismatch => execCksMismatch b s
  | .eomMatch => execEomMatch b s
  | .eomMismatch => execEomMismatch b s
  | .default => execDefault b s

/-- FEED (R71): one byte drives exactly the one transition that status and byte select. -/
def execFeed (b : Byte) (s : State) : StepOut :=
  match selectRow s.view b with
  | some r => execRow r b s
  | none => transition true s (.refused .corruptState)

end Sys2Proof.Machine
end

