-- ==== Sys2Proof/Machine/Reset.lean ====
section
/-! DEFINITION. RESET (R120). -/

namespace Sys2Proof.Machine

/-- `RESET` (R120): the session takes its reset values (R27), the table is emptied, a new setup begins, with no result and
no event. The marker pins and the implementation's capacities stay (log entry 6); the new instance has no observers yet
(log entry 9). -/
def execReset (s : State) : StepOut :=
  .next { s with
    status := .idle
    payload := []
    remaining := 0
    cks := 0
    sel := none
    cfg := { s.cfg with table := [] }
    started := false
    observers := 0
    out := {} }

end Sys2Proof.Machine
end

