-- ==== Sys2Proof/Machine/TableOps.lean ====
section
/-! DEFINITION. The operations of the descriptor table (R64 to R70). None of them touches the Parse Session State. -/

namespace Sys2Proof.Machine

/-- `REGISTER` success (R65): the table gains the descriptor and the call returns it. -/
def execRegisterOk (id : Byte) (framing : Framing) (cks : Bool) (s : State) : StepOut :=
  registration .ok ⟨id, framing, cks⟩ s
    (.next { s with
      cfg := { s.cfg with table := tableInsert ⟨id, framing, cks⟩ s.cfg.table }
      out := { reg := some (.ok ⟨id, framing, cks⟩) } })

/-- `REGISTER` failure `SizeNotSet` (R66): the table is unchanged. -/
def execRegisterSizeNotSet (id : Byte) (framing : Framing) (cks : Bool) (s : State) : StepOut :=
  registration .sizeNotSet ⟨id, framing, cks⟩ s (.next { s with out := { reg := some (.err .sizeNotSet) } })

/-- `REGISTER` failure `IdAliasing` (R68): the table is unchanged. -/
def execRegisterIdAliasing (id : Byte) (framing : Framing) (cks : Bool) (s : State) : StepOut :=
  registration .idAliasing ⟨id, framing, cks⟩ s (.next { s with out := { reg := some (.err .idAliasing) } })

/-- `REGISTER` with a length the implementation cannot hold (R67): the spec gives it no outcome. -/
def execRegisterRefused (id : Byte) (framing : Framing) (cks : Bool) (s : State) : StepOut :=
  registration .tooLong ⟨id, framing, cks⟩ s (.refused .lengthTooLong)

/-- `LOOKUP` (R69), legal in both phases (R119). -/
def execLookup (id : Byte) (s : State) : StepOut :=
  .next { s with out := { found := some (tableRead s.cfg.table id) } }

/-- How `BUILD` ends: with what it returns, or without an outcome at a request that R67 refuses. -/
inductive BuildEnd where
  | done (r : BuildResult)
  | tooLong
deriving DecidableEq, Repr

/-- The requests applied in order with `REGISTER`; the first failure aborts (R70). -/
def buildFrom (cfg : Config) (t : Table) : List Req → BuildEnd
  | [] => .done (.ok t)
  | r :: rs =>
    match registerCase cfg t r with
    | .ok => buildFrom cfg (tableInsert ⟨r.id, r.framing, r.cks⟩ t) rs
    | .sizeNotSet => .done (.err .sizeNotSet)
    | .idAliasing => .done (.err .idAliasing)
    | .tooLong => .tooLong

/-- The table an instance holds after `BUILD` yields `new`: it takes `new` where its own table is empty. DESIGN CHOICE (log
entry 17): a table that holds descriptors already is kept, since no operation removes or changes one (R64). -/
def installTable (old new : Table) : Table :=
  match old with
  | [] => new
  | _ :: _ => old

/-- `BUILD` (R70): it answers what the construction from the empty table yields, and an instance with an empty table gets that
table (log entry 17). DESIGN CHOICE (log entry 7): a failed build leaves the instance's table as it was. -/
def execBuild (reqs : List Req) (s : State) : StepOut :=
  inSetup s
    (match buildFrom s.cfg [] reqs with
     | .done (.ok t) => .next { s with
         cfg := { s.cfg with table := installTable s.cfg.table t }
         out := { built := some (.ok t) } }
     | .done (.err e) => .next { s with out := { built := some (.err e) } }
     | .tooLong => .refused .lengthTooLong)

end Sys2Proof.Machine
end

