-- ==== Sys2Proof/Machine/Dispatch.lean ====
section
/-! DEFINITION. One arm per instruction. -/

namespace Sys2Proof.Machine

def exec (i : Instr) (s : State) : Host.Outcome State Fault Refusal :=
  match i with
  | .idleSom b => Sys2Proof.Machine.execIdleSom b s
  | .idleSync b => Sys2Proof.Machine.execIdleSync b s
  | .idHitSized b => Sys2Proof.Machine.execIdHitSized b s
  | .idHitBounded b => Sys2Proof.Machine.execIdHitBounded b s
  | .idMiss b => Sys2Proof.Machine.execIdMiss b s
  | .dataSizedMore b => Sys2Proof.Machine.execDataSizedMore b s
  | .dataSizedLastCk b => Sys2Proof.Machine.execDataSizedLastCk b s
  | .dataSizedLastNock b => Sys2Proof.Machine.execDataSizedLastNock b s
  | .dataBoundedMore b => Sys2Proof.Machine.execDataBoundedMore b s
  | .dataBoundedTermCk b => Sys2Proof.Machine.execDataBoundedTermCk b s
  | .dataBoundedTermNock b => Sys2Proof.Machine.execDataBoundedTermNock b s
  | .cksMatchSized b => Sys2Proof.Machine.execCksMatchSized b s
  | .cksMatchBounded b => Sys2Proof.Machine.execCksMatchBounded b s
  | .cksMismatch b => Sys2Proof.Machine.execCksMismatch b s
  | .eomMatch b => Sys2Proof.Machine.execEomMatch b s
  | .eomMismatch b => Sys2Proof.Machine.execEomMismatch b s
  | .default b => Sys2Proof.Machine.execDefault b s
  | .feed b => Sys2Proof.Machine.execFeed b s
  | .registerOk id framing cks => Sys2Proof.Machine.execRegisterOk id framing cks s
  | .registerSizeNotSet id framing cks => Sys2Proof.Machine.execRegisterSizeNotSet id framing cks s
  | .registerIdAliasing id framing cks => Sys2Proof.Machine.execRegisterIdAliasing id framing cks s
  | .registerRefused id framing cks => Sys2Proof.Machine.execRegisterRefused id framing cks s
  | .lookup id => Sys2Proof.Machine.execLookup id s
  | .build reqs => Sys2Proof.Machine.execBuild reqs s
  | .reset => Sys2Proof.Machine.execReset s

end Sys2Proof.Machine
end

