-- ==== Sys2Proof/Machine/Ports.lean ====
section
/-! DEFINITION. The port level: numeric codes (R53 to R57), the register-transfer view of the state (R28, R31, R56), the
result outputs and strobes (R59, R104), and the payload read port (R60). -/

namespace Sys2Proof.Machine

/-- `status_q` (R53). -/
def statusCode : Status → BitVec 3
  | .idle => 0
  | .waitId => 1
  | .waitData => 2
  | .waitCheckSum => 3
  | .waitEoM => 4
  | .other k => BitVec.ofNat 3 (5 + k.val)

/-- The status a code stands for; 5, 6 and 7 are none of the five states (R52, R53). -/
def statusOfCode (c : BitVec 3) : Status :=
  match c.toNat with
  | 0 => .idle
  | 1 => .waitId
  | 2 => .waitData
  | 3 => .waitCheckSum
  | 4 => .waitEoM
  | 5 => .other 0
  | 6 => .other 1
  | _ => .other 2

/-- Result-kind codes (R54). -/
def resultCode : Result → BitVec 2
  | .parsing => 0
  | .completed _ _ => 1
  | .error _ _ => 2

/-- Error-kind codes (R55). -/
def errorCode : ErrKind → BitVec 3
  | .syncError => 0
  | .missingId => 1
  | .checksum => 2
  | .missingEom => 3
  | .formatError => 4

/-- Registration-outcome codes (R57). -/
def registerCode : RegResult → BitVec 2
  | .ok _ => 0
  | .err .sizeNotSet => 1
  | .err .idAliasing => 2

/-- The registers of a register-transfer realisation (R28, R31, R61); `rem_q` is the unsigned `LEN_W`-bit countdown. -/
structure PortRegs where
  statusQ : BitVec 3
  cksQ : Byte
  remQ : Nat
  selIdQ : Byte
  selSizedQ : Bool
  selCksQ : Bool
  selValidQ : Bool
  plLenQ : Nat
  startedQ : Bool
deriving DecidableEq, Repr

/-- The registers that hold a state. DESIGN CHOICE (log entry 16): where no descriptor is selected only `sel_valid_q` means
anything, and the other three `sel` registers are shown as 0. -/
def portRegs (s : State) : PortRegs :=
  { statusQ := statusCode s.status
    cksQ := s.cks
    remQ := s.remaining
    selIdQ := (s.sel.map Desc.id).getD 0
    selSizedQ := selSized s
    selCksQ := selChecks s
    selValidQ := s.sel.isSome
    plLenQ := s.payload.length
    startedQ := s.started }

/-- One table slot (R56). -/
structure Slot where
  valid : Bool
  sized : Bool
  cks : Bool
  length : Nat
deriving DecidableEq, Repr

/-- The slot of an identifier (R35, R56): the length is stored as 0 for `Bounded`. DESIGN CHOICE (log entry 16): where `valid`
is 0 the spec gives the other three fields no value, and they are shown as 0. -/
def slotOf (t : Table) (id : Byte) : Slot :=
  match tableRead t id with
  | none => { valid := false, sized := false, cks := false, length := 0 }
  | some d => { valid := true, sized := isSized d.framing, cks := d.cks, length := lengthOperand d.framing }

/-- The descriptor a slot holds (R56). -/
def slotDesc (id : Byte) (s : Slot) : Option Desc :=
  if s.valid then some { id := id, framing := pinFraming s.sized s.length, cks := s.cks } else none

/-- The result outputs and the two event strobes of one cycle (R59, R104). -/
structure ResPins where
  resKind : BitVec 2
  resErr : BitVec 3
  resObsValid : Bool
  resObs : Byte
  resId : Byte
  evtCompleted : Bool
  evtError : Bool
deriving DecidableEq, Repr

/-- The outputs of the cycle that a step was (R59, R104). Without a feed they show `Parsing` and no strobe (R58). -/
def resPins (o : Output) : ResPins :=
  let r := o.result.getD .parsing
  { resKind := resultCode r
    resErr := match r with
      | .error k _ => errorCode k
      | _ => 0
    resObsValid := match r with
      | .error _ (some _) => true
      | _ => false
    resObs := match r with
      | .error _ (some b) => b
      | _ => 0
    resId := match r with
      | .completed i _ => i
      | _ => 0
    evtCompleted := match o.event with
      | some (.completed _ _) => true
      | _ => false
    evtError := match o.event with
      | some (.error _ _) => true
      | _ => false }

/-- The address that a consumer presents on the payload read port with an input, if any (R60). -/
def readAddress : Input → Option Nat
  | .cycle p => p.plRaddr
  | _ => none

/-- The payload read port in a clock edge whose consumer presents `pl_raddr` (R60): the payload byte before the edge, or a
free value at or beyond the length (log entry 8). -/
def readPort (i : Input) (before after : State) : State :=
  match readAddress i with
  | none => after
  | some a =>
    match payloadRead before a with
    | some b => { after with out := { after.out with rdata := some b } }
    | none =>
      { after with
        out := { after.out with rdata := some (Config.freeCell after.free) }
        free := after.free + 1 }

/-- The read port beside a step that may stop. -/
def withReadPort (i : Input) (before : State) (o : StepOut) : StepOut :=
  match o with
  | .next t => .next (readPort i before t)
  | .fault f => .fault f
  | .refused r => .refused r

end Sys2Proof.Machine
end

