-- ==== Sys2Proof/Machine/Run.lean ====
section
/-! DEFINITION. What a decoded input does. -/

namespace Sys2Proof.Machine

/-- What a decoded input does (the input itself already taken from the list). -/
def runDecoded (d : Decoded) (s : State) : StepOut :=
  match d with
  | .instr i => exec i s
  | .hold => .next (hold s)
  | .markers a z => fixMarkers a z s
  | .subscribe => subscribe s
  | .reject r => .refused (refusalOf r)

end Sys2Proof.Machine
end

