-- ==== Sys2Proof/Machine/Step.lean ====
section
/-! DEFINITION. One step: the next input is taken, decoded and run. -/

namespace Sys2Proof.Machine

/-- One step: with nothing on the inputs the machine holds (R137); otherwise the oldest input is taken, decoded in the
present state and run, with the payload read port beside it. -/
def step (s : State) : Host.Outcome State Fault Refusal :=
  match s.input with
  | [] => .next (hold s)
  | i :: rest => withReadPort i s (runDecoded (decode s.view i) { s with input := rest })

/-- The state with a table word placed as the next stream byte (log entry 3). Only 8-bit words are stream bytes. -/
def State.withFetchWord (s : State) (nbits w : Nat) : State :=
  if nbits == 8 && decide (w < 256) then { s with input := .byte (BitVec.ofNat 8 w) :: s.input } else s

end Sys2Proof.Machine
end

