-- ==== Sys2Proof/Safety.lean ====
section
/-! DEFINITION. What statements speak of: the reachable-state invariant (R20, R29), the conditions of the byte decode (R50),
and runs of feeds (R7). -/

namespace Sys2Proof.Machine

/-- The invariant of R20, with the configuration of R23, the phases of R119 and the capacities of R34 and R67 that make every
step keep it. -/
structure Inv (s : State) : Prop where
  /-- R23. -/
  config_valid : configValid s.cfg = true
  /-- R67: only lengths the implementation holds are registered. -/
  lengths_held : ∀ d ∈ s.cfg.table, lengthHeld s.cfg d.framing = true
  /-- R119: in setup no byte has been fed. -/
  setup_session : s.started = false →
    s.status = .idle ∧ s.payload = [] ∧ s.remaining = 0 ∧ s.cks = 0 ∧ s.sel = none
  /-- R29: the status is one of the five. -/
  status_legal : ∀ k, s.status ≠ .other k
  /-- R20 (i), first half, and (ii). -/
  selected_iff : s.sel.isSome = true ↔ (s.status = .waitData ∨ s.status = .waitCheckSum ∨ s.status = .waitEoM)
  /-- R20 (i), second half. -/
  selected_in_table : ∀ d, s.sel = some d → tableRead s.cfg.table d.id = some d
  /-- R20 (iii). -/
  waitId_cleared : s.status = .waitId → s.payload = [] ∧ s.cks = 0 ∧ s.remaining = 0
  /-- R20 (iv). -/
  data_sized : ∀ i n c, s.status = .waitData → s.sel = some ⟨i, .sized n, c⟩ →
    1 ≤ s.remaining ∧ s.remaining ≤ n ∧ s.payload.length = n - s.remaining
  /-- R20 (v). -/
  data_bounded : ∀ i c, s.status = .waitData → s.sel = some ⟨i, .bounded, c⟩ →
    s.remaining = 0 ∧ s.cfg.stop ∉ s.payload
  /-- R20 (vi). -/
  closed_sized : ∀ i n c, s.status = .waitCheckSum ∨ s.status = .waitEoM → s.sel = some ⟨i, .sized n, c⟩ →
    s.remaining = 0 ∧ s.payload.length = n
  /-- R20 (vii). -/
  closed_bounded : ∀ i c, s.status = .waitCheckSum ∨ s.status = .waitEoM → s.sel = some ⟨i, .bounded, c⟩ →
    ∃ ds, s.payload = ds ++ [s.cfg.stop] ∧ s.cfg.stop ∉ ds
  /-- R20 (viii). -/
  checksum_wanted : ∀ d, s.status = .waitCheckSum → s.sel = some d → d.cks = true
  /-- R20 (ix). -/
  eom_sized_plain : ∀ i n c, s.status = .waitEoM → s.sel = some ⟨i, .sized n, c⟩ → c = false
  /-- R20 (x). -/
  accumulator : ∀ d, s.sel = some d → s.cks = if d.cks then checksum s.payload else 0
  /-- R34: the buffer never exceeds a finite capacity. -/
  payload_held : withinBound s.cfg.payloadMax s.payload.length = true

/-- The predicate of a row of R50 in a view, for a fed byte. -/
def rowHolds (v : View) (b : Byte) : Row → Prop
  | .idleSom => v.status = .idle ∧ b = v.cfg.start
  | .idleSync => v.status = .idle ∧ b ≠ v.cfg.start
  | .idHitSized => v.status = .waitId ∧ ∃ d n, tableRead v.cfg.table b = some d ∧ d.framing = .sized n
  | .idHitBounded => v.status = .waitId ∧ ∃ d, tableRead v.cfg.table b = some d ∧ d.framing = .bounded
  | .idMiss => v.status = .waitId ∧ tableRead v.cfg.table b = none
  | .dataSizedMore => v.status = .waitData ∧ 2 ≤ v.remaining ∧ ∃ d n, v.sel = some d ∧ d.framing = .sized n
  | .dataSizedLastCk =>
    v.status = .waitData ∧ v.remaining = 1 ∧ ∃ d n, v.sel = some d ∧ d.framing = .sized n ∧ d.cks = true
  | .dataSizedLastNock =>
    v.status = .waitData ∧ v.remaining = 1 ∧ ∃ d n, v.sel = some d ∧ d.framing = .sized n ∧ d.cks = false
  | .dataBoundedMore => v.status = .waitData ∧ b ≠ v.cfg.stop ∧ ∃ d, v.sel = some d ∧ d.framing = .bounded
  | .dataBoundedTermCk =>
    v.status = .waitData ∧ b = v.cfg.stop ∧ ∃ d, v.sel = some d ∧ d.framing = .bounded ∧ d.cks = true
  | .dataBoundedTermNock =>
    v.status = .waitData ∧ b = v.cfg.stop ∧ ∃ d, v.sel = some d ∧ d.framing = .bounded ∧ d.cks = false
  | .cksMatchSized => v.status = .waitCheckSum ∧ b = v.cks ∧ ∃ d n, v.sel = some d ∧ d.framing = .sized n
  | .cksMatchBounded => v.status = .waitCheckSum ∧ b = v.cks ∧ ∃ d, v.sel = some d ∧ d.framing = .bounded
  | .cksMismatch => v.status = .waitCheckSum ∧ b ≠ v.cks
  | .eomMatch => v.status = .waitEoM ∧ b = v.cfg.stop
  | .eomMismatch => v.status = .waitEoM ∧ b ≠ v.cfg.stop
  | .default => ∃ k, v.status = .other k

/-- A view in which D22 gives a byte a meaning: a descriptor is selected where one is needed, and a `Sized` countdown is
not already at 0. -/
def viewCoherent (v : View) : Prop :=
  (v.status = .waitData → ∃ d, v.sel = some d ∧ (∀ n, d.framing = .sized n → 1 ≤ v.remaining)) ∧
  (v.status = .waitCheckSum → v.sel.isSome = true)

/-- The condition under which an instruction is the one its encoding selects in a view: the row's predicate for a
transition (R50), the outcome's condition in setup for a registration (R61, R115), none for the other operations. -/
def selectedIn (v : View) : Instr → Prop
  | .idleSom b => rowHolds v b .idleSom
  | .idleSync b => rowHolds v b .idleSync
  | .idHitSized b => rowHolds v b .idHitSized
  | .idHitBounded b => rowHolds v b .idHitBounded
  | .idMiss b => rowHolds v b .idMiss
  | .dataSizedMore b => rowHolds v b .dataSizedMore
  | .dataSizedLastCk b => rowHolds v b .dataSizedLastCk
  | .dataSizedLastNock b => rowHolds v b .dataSizedLastNock
  | .dataBoundedMore b => rowHolds v b .dataBoundedMore
  | .dataBoundedTermCk b => rowHolds v b .dataBoundedTermCk
  | .dataBoundedTermNock b => rowHolds v b .dataBoundedTermNock
  | .cksMatchSized b => rowHolds v b .cksMatchSized
  | .cksMatchBounded b => rowHolds v b .cksMatchBounded
  | .cksMismatch b => rowHolds v b .cksMismatch
  | .eomMatch b => rowHolds v b .eomMatch
  | .eomMismatch b => rowHolds v b .eomMismatch
  | .default b => rowHolds v b .default
  | .feed _ => True
  | .registerOk i f c => v.started = false ∧ registerCase v.cfg v.cfg.table ⟨i, f, c⟩ = .ok
  | .registerSizeNotSet i f c => v.started = false ∧ registerCase v.cfg v.cfg.table ⟨i, f, c⟩ = .sizeNotSet
  | .registerIdAliasing i f c => v.started = false ∧ registerCase v.cfg v.cfg.table ⟨i, f, c⟩ = .idAliasing
  | .registerRefused i f c => v.started = false ∧ registerCase v.cfg v.cfg.table ⟨i, f, c⟩ = .tooLong
  | .lookup _ => True
  | .build _ => True
  | .reset => True

/-- A run of feeds (R7): the bytes fed in order, with the outputs of each. `none` where a feed is refused. -/
def feedAll (s : State) : List Byte → Option (State × List Output)
  | [] => some (s, [])
  | b :: bs =>
    match exec (.feed b) s with
    | .next t => (feedAll t bs).map (fun r => (r.1, t.out :: r.2))
    | _ => none

/-- The observation of a run (R7): the results of a list of outputs. -/
def resultsOf (outs : List Output) : List (Option Result) := outs.map Output.result

/-- Room for `n` more payload bytes from an empty buffer, in a finite buffer (R34). -/
def roomFor (s : State) (n : Nat) : Prop := withinBound s.cfg.payloadMax n = true

end Sys2Proof.Machine
end

