-- ==== Sys2Proof/Certificates/Slice0/Obligations.lean ====
section
/-! DEFINITION. The statements for the provers. Each `next` equation names every field that changes; every field it does not
name is unchanged. `feedOutput k n r` is the output of a feed with result `r` (its event and deliveries are what
`EveryResultFiresItsEvent` and `EveryObserverSeesEachEventOnce` say). -/

open Sys2Proof
open Sys2Proof.Machine

/-! ### The transitions, one by one (R72 to R89) -/

/-- R72 (T1): completion, result and frame. -/
def Obligations.StartMarkerOpensMessage : Prop :=
  ∀ (s : State) (b : Byte), configValid s.cfg = true → s.status = .idle → b = s.cfg.start →
    exec (.idleSom b) s = .next { s with
      status := .waitId, payload := [], cks := 0, remaining := 0
      started := true, out := feedOutput s.free s.observers .parsing }

/-- R73 (T2): no session field is written. -/
def Obligations.StrayByteReportsSyncError : Prop :=
  ∀ (s : State) (b : Byte), configValid s.cfg = true → s.status = .idle → b ≠ s.cfg.start →
    exec (.idleSync b) s = .next { s with
      started := true, out := feedOutput s.free s.observers (.error .syncError none), free := s.free + 1 }

/-- R74 (T3). -/
def Obligations.SizedIdentifierLoadsCountdown : Prop :=
  ∀ (s : State) (b : Byte) (d : Desc) (n : Nat), configValid s.cfg = true → s.status = .waitId →
    tableRead s.cfg.table b = some d → d.framing = .sized n →
    exec (.idHitSized b) s = .next { s with
      sel := some d, remaining := n, status := .waitData
      started := true, out := feedOutput s.free s.observers .parsing }

/-- R75 (T4). -/
def Obligations.BoundedIdentifierClearsCountdown : Prop :=
  ∀ (s : State) (b : Byte) (d : Desc), configValid s.cfg = true → s.status = .waitId →
    tableRead s.cfg.table b = some d → d.framing = .bounded →
    exec (.idHitBounded b) s = .next { s with
      sel := some d, remaining := 0, status := .waitData
      started := true, out := feedOutput s.free s.observers .parsing }

/-- R76 (T5). -/
def Obligations.UnknownIdentifierReturnsToIdle : Prop :=
  ∀ (s : State) (b : Byte), configValid s.cfg = true → s.status = .waitId → tableRead s.cfg.table b = none →
    exec (.idMiss b) s = .next { s with
      status := .idle, sel := none
      started := true, out := feedOutput s.free s.observers (.error .missingId none), free := s.free + 1 }

/-- R77, R78 (T6). -/
def Obligations.SizedByteCountsDown : Prop :=
  ∀ (s : State) (b : Byte) (d : Desc) (n : Nat), configValid s.cfg = true → s.status = .waitData →
    s.sel = some d → d.framing = .sized n → 2 ≤ s.remaining →
    (∀ m, s.cfg.payloadMax = some m → s.payload.length < m) →
    exec (.dataSizedMore b) s = .next { s with
      payload := s.payload ++ [b], cks := if d.cks = true then s.cks + b else s.cks, remaining := s.remaining - 1
      started := true, out := feedOutput s.free s.observers .parsing }

/-- R77, R79 (T7). -/
def Obligations.LastSizedByteAwaitsChecksum : Prop :=
  ∀ (s : State) (b : Byte) (d : Desc) (n : Nat), configValid s.cfg = true → s.status = .waitData →
    s.sel = some d → d.framing = .sized n → d.cks = true → s.remaining = 1 →
    (∀ m, s.cfg.payloadMax = some m → s.payload.length < m) →
    exec (.dataSizedLastCk b) s = .next { s with
      payload := s.payload ++ [b], cks := s.cks + b, remaining := 0, status := .waitCheckSum
      started := true, out := feedOutput s.free s.observers .parsing }

/-- R77, R80 (T8). -/
def Obligations.LastSizedByteAwaitsEndMarker : Prop :=
  ∀ (s : State) (b : Byte) (d : Desc) (n : Nat), configValid s.cfg = true → s.status = .waitData →
    s.sel = some d → d.framing = .sized n → d.cks = false → s.remaining = 1 →
    (∀ m, s.cfg.payloadMax = some m → s.payload.length < m) →
    exec (.dataSizedLastNock b) s = .next { s with
      payload := s.payload ++ [b], remaining := 0, status := .waitEoM
      started := true, out := feedOutput s.free s.observers .parsing }

/-- R77, R81 (T9). -/
def Obligations.BoundedByteIsAppended : Prop :=
  ∀ (s : State) (b : Byte) (d : Desc), configValid s.cfg = true → s.status = .waitData →
    s.sel = some d → d.framing = .bounded → b ≠ s.cfg.stop →
    (∀ m, s.cfg.payloadMax = some m → s.payload.length < m) →
    exec (.dataBoundedMore b) s = .next { s with
      payload := s.payload ++ [b], cks := if d.cks = true then s.cks + b else s.cks
      started := true, out := feedOutput s.free s.observers .parsing }

/-- R77, R82 (T10): the terminator is appended and summed. -/
def Obligations.TerminatorAwaitsChecksum : Prop :=
  ∀ (s : State) (b : Byte) (d : Desc), configValid s.cfg = true → s.status = .waitData →
    s.sel = some d → d.framing = .bounded → d.cks = true → b = s.cfg.stop →
    (∀ m, s.cfg.payloadMax = some m → s.payload.length < m) →
    exec (.dataBoundedTermCk b) s = .next { s with
      payload := s.payload ++ [b], cks := s.cks + b, status := .waitCheckSum
      started := true, out := feedOutput s.free s.observers .parsing }

/-- R77, R83 (T11): the terminator is appended, and the message is not complete. -/
def Obligations.TerminatorAwaitsEndMarker : Prop :=
  ∀ (s : State) (b : Byte) (d : Desc), configValid s.cfg = true → s.status = .waitData →
    s.sel = some d → d.framing = .bounded → d.cks = false → b = s.cfg.stop →
    (∀ m, s.cfg.payloadMax = some m → s.payload.length < m) →
    exec (.dataBoundedTermNock b) s = .next { s with
      payload := s.payload ++ [b], status := .waitEoM
      started := true, out := feedOutput s.free s.observers .parsing }

/-- R84 (T12): payload, accumulator and countdown keep their values. -/
def Obligations.SizedChecksumMatchCompletes : Prop :=
  ∀ (s : State) (b : Byte) (d : Desc) (n : Nat), configValid s.cfg = true → s.status = .waitCheckSum →
    s.sel = some d → d.framing = .sized n → b = s.cks →
    exec (.cksMatchSized b) s = .next { s with
      status := .idle, sel := none
      started := true, out := feedOutput s.free s.observers (.completed d.id s.payload), free := s.free + 1 }

/-- R85 (T13): only the status is written. -/
def Obligations.BoundedChecksumMatchAwaitsEndMarker : Prop :=
  ∀ (s : State) (b : Byte) (d : Desc), configValid s.cfg = true → s.status = .waitCheckSum →
    s.sel = some d → d.framing = .bounded → b = s.cks →
    exec (.cksMatchBounded b) s = .next { s with
      status := .waitEoM, started := true, out := feedOutput s.free s.observers .parsing }

/-- R86 (T14): the observed byte is the fed one. -/
def Obligations.ChecksumMismatchReportsFedByte : Prop :=
  ∀ (s : State) (b : Byte), configValid s.cfg = true → s.status = .waitCheckSum → b ≠ s.cks →
    exec (.cksMismatch b) s = .next { s with
      status := .idle, sel := none
      started := true, out := feedOutput s.free s.observers (.error .checksum (some b)), free := s.free + 1 }

/-- R87 (T15): the end-of-message byte is not appended. -/
def Obligations.EndMarkerCompletes : Prop :=
  ∀ (s : State) (b : Byte) (d : Desc), configValid s.cfg = true → s.status = .waitEoM →
    s.sel = some d → b = s.cfg.stop →
    exec (.eomMatch b) s = .next { s with
      status := .idle, sel := none
      started := true, out := feedOutput s.free s.observers (.completed d.id s.payload), free := s.free + 1 }

/-- R88 (T16). -/
def Obligations.WrongEndMarkerReportsFedByte : Prop :=
  ∀ (s : State) (b : Byte), configValid s.cfg = true → s.status = .waitEoM → b ≠ s.cfg.stop →
    exec (.eomMismatch b) s = .next { s with
      status := .idle, sel := none
      started := true, out := feedOutput s.free s.observers (.error .missingEom (some b)), free := s.free + 1 }

/-- R89 (T17). -/
def Obligations.IllegalStatusRecovers : Prop :=
  ∀ (s : State) (b : Byte) (k : Fin 3), configValid s.cfg = true → s.status = .other k →
    exec (.default b) s = .next { s with
      status := .idle, sel := none
      started := true, out := feedOutput s.free s.observers (.error .formatError (some b)), free := s.free + 1 }

/-! ### FEED -/

/-- R71: one byte drives exactly the transition that the byte decode selects. -/
def Obligations.FeedRunsTheSelectedTransition : Prop :=
  ∀ (s : State) (b : Byte) (r : Row), selectRow s.view b = some r → exec (.feed b) s = exec (r.instr b) s

/-- R71: a feed completes under every valid configuration, for every byte, in every state that D22 gives a meaning, where a
finite buffer has room (R34). It answers one result, writes the outputs from it, and ends the setup phase. -/
def Obligations.FeedCompletes : Prop :=
  ∀ (s : State) (b : Byte), configValid s.cfg = true → viewCoherent s.view →
    (s.status = .waitEoM → s.sel.isSome = true) →
    (s.status = .waitData → ∀ m, s.cfg.payloadMax = some m → s.payload.length < m) →
    ∃ (t : State) (r : Result), exec (.feed b) s = .next t ∧ t.out = feedOutput s.free s.observers r ∧ t.started = true

/-! ### The descriptor table -/

/-- R65, R64: the new table, which stays valid, the returned descriptor, and the frame. -/
def Obligations.RegisterOkInsertsDescriptor : Prop :=
  ∀ (s : State) (i : Byte) (f : Framing) (c : Bool), s.started = false →
    (∀ n, f = .sized n → 1 ≤ n ∧ (∀ m, s.cfg.lenMax = some m → n ≤ m) ∧ (∀ m, s.cfg.payloadMax = some m → n ≤ m)) →
    tableRead s.cfg.table i = none →
    ∃ t : State, exec (.registerOk i f c) s = .next t ∧
      t.out = { reg := some (.ok ⟨i, f, c⟩) } ∧
      tableRead t.cfg.table i = some ⟨i, f, c⟩ ∧
      (∀ j, j ≠ i → tableRead t.cfg.table j = tableRead s.cfg.table j) ∧
      (configValid s.cfg = true → configValid t.cfg = true) ∧
      t = { s with cfg := { s.cfg with table := t.cfg.table }, out := t.out }

/-- R66, R115: whatever the identifier, present or not, the table is unchanged. -/
def Obligations.RegisterUnsetLengthFails : Prop :=
  ∀ (s : State) (i : Byte) (c : Bool), s.started = false →
    exec (.registerSizeNotSet i (.sized 0) c) s = .next { s with out := { reg := some (.err .sizeNotSet) } }

/-- R68: the existing descriptor is kept. -/
def Obligations.RegisterDuplicateFails : Prop :=
  ∀ (s : State) (i : Byte) (f : Framing) (c : Bool) (d : Desc), s.started = false →
    (∀ n, f = .sized n → 1 ≤ n ∧ (∀ m, s.cfg.lenMax = some m → n ≤ m) ∧ (∀ m, s.cfg.payloadMax = some m → n ≤ m)) →
    tableRead s.cfg.table i = some d →
    exec (.registerIdAliasing i f c) s = .next { s with out := { reg := some (.err .idAliasing) } }

/-- R67: a length the implementation cannot hold has no outcome. -/
def Obligations.RegisterTooLongIsRefused : Prop :=
  ∀ (s : State) (i : Byte) (n : Nat) (c : Bool) (m : Nat), s.started = false → n ≠ 0 →
    (s.cfg.lenMax = some m ∨ s.cfg.payloadMax = some m) → m < n →
    exec (.registerRefused i (.sized n) c) s = .refused .lengthTooLong

/-- R69: defined for every identifier and table, writes nothing but its answer, and finds only the identifier asked for. -/
def Obligations.LookupAnswersTheTable : Prop :=
  ∀ (s : State) (i : Byte),
    exec (.lookup i) s = .next { s with out := { found := some (tableRead s.cfg.table i) } } ∧
    (∀ d, tableRead s.cfg.table i = some d → d.id = i ∧ d ∈ s.cfg.table) ∧
    (tableRead s.cfg.table i = none → ∀ d ∈ s.cfg.table, d.id ≠ i)

/-- R70: in setup, where every request that the construction reaches has a length that can be held (where one has not,
`LaunchesWithoutMeaningAreRefused` says that the build is refused), BUILD completes: with a valid table that holds every
request, or with the failure of the first request that fails, whatever stands after it. A descriptor the instance had is kept
(R64). The model's choices: an instance gets the built table where its own is empty (log entry 17), and a failed build leaves
its table unchanged (log entry 7). Nothing else changes. -/
def Obligations.BuildCompletes : Prop :=
  ∀ (s : State) (rs : List Req), s.started = false →
    (∀ (pre post : List Req) (q : Req) (u : Table), rs = pre ++ q :: post →
      buildFrom s.cfg [] pre = .done (.ok u) → lengthHeld s.cfg q.framing = true) →
    ∃ (t : State) (r : BuildResult), exec (.build rs) s = .next t ∧ t.out = { built := some r } ∧
      t = { s with cfg := { s.cfg with table := t.cfg.table }, out := t.out } ∧
      (∀ i d, tableRead s.cfg.table i = some d → tableRead t.cfg.table i = some d) ∧
      match r with
      | .ok u => configValid { s.cfg with table := u } = true ∧ u.length = rs.length ∧
          (s.cfg.table = [] → t.cfg.table = u) ∧ (s.cfg.table ≠ [] → t.cfg.table = s.cfg.table) ∧
          (∀ q ∈ rs, tableRead u q.id = some ⟨q.id, q.framing, q.cks⟩)
      | .err e => t.cfg.table = s.cfg.table ∧
          ∃ (pre post : List Req) (q : Req) (u : Table), rs = pre ++ q :: post ∧
            buildFrom s.cfg [] pre = .done (.ok u) ∧
            ((e = .sizeNotSet ∧ q.framing = .sized 0) ∨
              (e = .idAliasing ∧ q.framing ≠ .sized 0 ∧ (tableRead u q.id).isSome = true))

/-- R120, R27: the session at its reset values, the table empty, a new setup, no result and no event. The markers, the
capacities and the number of observers are the model's choice (log entries 6 and 9). -/
def Obligations.ResetStartsNewInstance : Prop :=
  ∀ (s : State),
    exec .reset s = .next { s with
      status := .idle, payload := [], remaining := 0, cks := 0, sel := none
      cfg := { s.cfg with table := [] }, started := false, observers := 0, out := {} }

/-! ### Steps, decoding and encoding -/

/-- A step runs the decoded instruction on the state with the input taken, and puts the payload read port beside it; with
nothing on the inputs it holds the state (R137). -/
def Obligations.StepRunsDecodedInstruction : Prop :=
  (∀ (s : State) (i : Input) (rest : List Input) (j : Instr), s.input = i :: rest → decode s.view i = .instr j →
    step s = withReadPort i s (exec j { s with input := rest })) ∧
  (∀ s : State, s.input = [] → step s = .next { s with out := {} })

/-- R50, R58, R61: a few encodings, written out, read as the instructions they stand for. -/
def Obligations.WrittenWordsDecode : Prop :=
  (∀ v : View, v.status = .idle → v.cfg.start = 0x7E → decode v (.byte 0b01111110) = .instr (.idleSom 0x7E)) ∧
  (∀ v : View, v.status = .waitEoM → v.cfg.stop = 0x7F → decode v (.byte 0b01111111) = .instr (.eomMatch 0x7F)) ∧
  (∀ v : View, decode v (.cycle { inValid := true, inByte := 0x31, regValid := v.started }) = .instr (.feed 0x31)) ∧
  (∀ (v : View) (p : Pins), decode v (.cycle { p with rst := true }) = .instr .reset) ∧
  (∀ v : View, v.started = false → v.cfg.table = [] → v.cfg.lenMax = none → v.cfg.payloadMax = none →
    decode v (.cycle { regValid := true, regId := 0x01, regSized := true, regLen := 2, regCks := true }) =
      .instr (.registerOk 0x01 (.sized 2) true))

/-- R50: the byte decode selects a row exactly when that row's predicate holds and the state is one that D22 gives a meaning;
the predicates exclude each other, and one holds for every byte. -/
def Obligations.ExactlyOneRowApplies : Prop :=
  (∀ (v : View) (b : Byte) (r : Row), selectRow v b = some r ↔ rowHolds v b r) ∧
  (∀ (v : View) (b : Byte) (r q : Row), rowHolds v b r → rowHolds v b q → r = q) ∧
  (∀ (v : View) (b : Byte), viewCoherent v → ∃ r, rowHolds v b r)

/-- R50, R58, R61, R120: decoding the encoding of a well-formed instruction, in any view in which it is the selected one, gives
the instruction, with every operand at every value. -/
def Obligations.DecodeOfEncodeIsTheInstruction : Prop :=
  ∀ (v : View) (i : Instr), i.wf = true → selectedIn v i → decode v (encode i) = .instr i

/-! ### The invariant -/

/-- R20 at reset. -/
def Obligations.ResetMeetsTheInvariant : Prop := Inv State.reset

/-- R20: every step keeps the invariant, whatever the host does next. -/
def Obligations.EveryStepKeepsTheInvariant : Prop :=
  ∀ s t : State, Inv s → step s = .next t → Inv t

/-! ### Errors -/

/-- R106. -/
def Obligations.SyncErrorExactlyOnStrayBytes : Prop :=
  (∀ (s t : State) (b : Byte), exec (.feed b) s = .next t →
    ((∃ o, t.out.result = some (.error .syncError o)) ↔ (s.status = .idle ∧ b ≠ s.cfg.start)) ∧
    (∀ o, t.out.result = some (.error .syncError o) →
      o = none ∧ t.status = .idle ∧ t.payload = s.payload ∧ t.remaining = s.remaining ∧ t.cks = s.cks ∧ t.sel = s.sel)) ∧
  (∀ (s t u : State) (b c : Byte) (k j : ErrKind) (o p : Option Byte), exec (.feed b) s = .next t →
    t.out.result = some (.error k o) → c ≠ t.cfg.start → exec (.feed c) t = .next u →
    u.out.result = some (.error j p) → j = .syncError)

/-- R107. -/
def Obligations.MissingIdExactlyOnUnknownIdentifier : Prop :=
  ∀ (s t : State) (b : Byte), exec (.feed b) s = .next t →
    ((∃ o, t.out.result = some (.error .missingId o)) ↔ (s.status = .waitId ∧ tableRead s.cfg.table b = none)) ∧
    (∀ o, t.out.result = some (.error .missingId o) → o = none ∧ t.status = .idle)

/-- R108. -/
def Obligations.ChecksumErrorExactlyOnMismatch : Prop :=
  ∀ (s t : State) (b : Byte), exec (.feed b) s = .next t →
    ((∃ o, t.out.result = some (.error .checksum o)) ↔ (s.status = .waitCheckSum ∧ b ≠ s.cks)) ∧
    (∀ o, t.out.result = some (.error .checksum o) →
      o = some b ∧ t.status = .idle ∧ (Inv s → ∃ d, s.sel = some d ∧ d.cks = true))

/-- R109. -/
def Obligations.MissingEomExactlyOnWrongEndMarker : Prop :=
  ∀ (s t : State) (b : Byte), exec (.feed b) s = .next t →
    ((∃ o, t.out.result = some (.error .missingEom o)) ↔ (s.status = .waitEoM ∧ b ≠ s.cfg.stop)) ∧
    (∀ o, t.out.result = some (.error .missingEom o) →
      o = some b ∧ t.status = .idle ∧
      (Inv s → ∃ d, s.sel = some d ∧ (∀ n, d.framing = .sized n → d.cks = false)))

/-- R110, R29: `FormatError` exactly where the status is none of the five, which no reachable state has. -/
def Obligations.FormatErrorNeverFromLegalStatus : Prop :=
  ∀ (s t : State) (b : Byte), exec (.feed b) s = .next t →
    ((∃ o, t.out.result = some (.error .formatError o)) ↔ ∃ k, s.status = .other k) ∧
    (∀ o, t.out.result = some (.error .formatError o) → o = some b ∧ t.status = .idle) ∧
    (Inv s → ∀ o, t.out.result ≠ some (.error .formatError o))

/-- R111: an error transition writes the status, the selection and the outputs, and nothing else of the machine. In `Idle` the
selection stays as it was (R73); it is `none` in every reachable state. -/
def Obligations.ErrorEntryWritesNothingElse : Prop :=
  ∀ (s t : State) (b : Byte) (k : ErrKind) (o : Option Byte), exec (.feed b) s = .next t →
    t.out.result = some (.error k o) →
    t = { s with
      status := .idle, sel := t.sel, started := true
      out := feedOutput s.free s.observers (.error k o), free := s.free + 1 } ∧
    (s.status = .idle → t.sel = s.sel) ∧ (s.status ≠ .idle → t.sel = none) ∧ (Inv s → t.sel = none)

/-- R116: after any error, whatever state it occurred in, the next start marker begins a fresh message. -/
def Obligations.EveryErrorResynchronises : Prop :=
  ∀ (s t : State) (b : Byte) (k : ErrKind) (o : Option Byte), exec (.feed b) s = .next t →
    t.out.result = some (.error k o) →
    ∃ u : State, exec (.feed t.cfg.start) t = .next u ∧ u.out.result = some .parsing ∧ u.status = .waitId ∧
      u.payload = [] ∧ u.cks = 0 ∧ u.remaining = 0

/-- Every terminal result leaves the machine at rest: `Idle`, nothing selected (R19, R111, R84, R87). -/
def Obligations.TerminalResultsRestInIdle : Prop :=
  ∀ (s t : State) (b : Byte), Inv s → exec (.feed b) s = .next t → t.out.result ≠ some .parsing →
    t.status = .idle ∧ t.sel = none

/-! ### Completion -/

/-- What a completed message tells (R22, R49, R91, R131): the identifier is registered and the payload has the shape its
descriptor prescribes. -/
def Obligations.CompletedPayloadFitsDescriptor : Prop :=
  ∀ (s t : State) (b : Byte) (i : Byte) (p : List Byte), Inv s → exec (.feed b) s = .next t →
    t.out.result = some (.completed i p) →
    p = s.payload ∧ p = t.payload ∧
    ∃ d, s.sel = some d ∧ tableRead s.cfg.table i = some d ∧
      (∀ n, d.framing = .sized n → p.length = n) ∧
      (d.framing = .bounded → ∃ ds, p = ds ++ [s.cfg.stop] ∧ s.cfg.stop ∉ ds) ∧
      (d.cks = true → s.cks = checksum p)

/-- R45, format SC. -/
def Obligations.FrameSizedChecksummedCompletes : Prop :=
  ∀ (s : State) (i : Byte) (n : Nat) (ds : List Byte), configValid s.cfg = true → s.status = .idle →
    tableRead s.cfg.table i = some ⟨i, .sized n, true⟩ → ds.length = n → roomFor s n →
    ∃ (t : State) (outs : List Output),
      feedAll s ([s.cfg.start, i] ++ ds ++ [checksum ds]) = some (t, outs) ∧
      resultsOf outs = List.replicate (n + 2) (some .parsing) ++ [some (.completed i ds)] ∧
      t.status = .idle ∧ t.sel = none ∧ t.payload = ds ∧ t.cfg = s.cfg

/-- R46, format SN. -/
def Obligations.FrameSizedPlainCompletes : Prop :=
  ∀ (s : State) (i : Byte) (n : Nat) (ds : List Byte), configValid s.cfg = true → s.status = .idle →
    tableRead s.cfg.table i = some ⟨i, .sized n, false⟩ → ds.length = n → roomFor s n →
    ∃ (t : State) (outs : List Output),
      feedAll s ([s.cfg.start, i] ++ ds ++ [s.cfg.stop]) = some (t, outs) ∧
      resultsOf outs = List.replicate (n + 2) (some .parsing) ++ [some (.completed i ds)] ∧
      t.status = .idle ∧ t.sel = none ∧ t.payload = ds ∧ t.cfg = s.cfg

/-- R47, format BN: the terminator is in the payload, and a second end marker completes the frame, as 90_conflicts.md C1
decides (log entry 14, DEDUCED). -/
def Obligations.FrameBoundedPlainCompletes : Prop :=
  ∀ (s : State) (i : Byte) (ds : List Byte), configValid s.cfg = true → s.status = .idle →
    tableRead s.cfg.table i = some ⟨i, .bounded, false⟩ → s.cfg.stop ∉ ds → roomFor s (ds.length + 1) →
    ∃ (t : State) (outs : List Output),
      feedAll s ([s.cfg.start, i] ++ ds ++ [s.cfg.stop, s.cfg.stop]) = some (t, outs) ∧
      resultsOf outs =
        List.replicate (ds.length + 3) (some .parsing) ++ [some (.completed i (ds ++ [s.cfg.stop]))] ∧
      t.status = .idle ∧ t.sel = none ∧ t.payload = ds ++ [s.cfg.stop] ∧ t.cfg = s.cfg

/-- R48, format BC: the checksum covers the terminator. -/
def Obligations.FrameBoundedChecksummedCompletes : Prop :=
  ∀ (s : State) (i : Byte) (ds : List Byte), configValid s.cfg = true → s.status = .idle →
    tableRead s.cfg.table i = some ⟨i, .bounded, true⟩ → s.cfg.stop ∉ ds → roomFor s (ds.length + 1) →
    ∃ (t : State) (outs : List Output),
      feedAll s ([s.cfg.start, i] ++ ds ++ [s.cfg.stop, checksum (ds ++ [s.cfg.stop]), s.cfg.stop]) = some (t, outs) ∧
      resultsOf outs =
        List.replicate (ds.length + 4) (some .parsing) ++ [some (.completed i (ds ++ [s.cfg.stop]))] ∧
      t.status = .idle ∧ t.sel = none ∧ t.payload = ds ++ [s.cfg.stop] ∧ t.cfg = s.cfg

/-! ### What a feed does and does not depend on -/

/-- R26: two `Idle` states that differ only in the stale fields give the same outputs for every byte sequence. -/
def Obligations.StaleFieldsAreUnobservable : Prop :=
  ∀ (s : State) (p : List Byte) (c : Byte) (r : Nat) (bs : List Byte), s.status = .idle →
    (feedAll s bs).map Prod.snd = (feedAll { s with payload := p, cks := c, remaining := r } bs).map Prod.snd

/-- R130, R90 (c): outside `Idle` no byte is tested against the start marker (a machine with another start marker does the
same), and none restarts the message. -/
def Obligations.StartMarkerIsDataInsideMessage : Prop :=
  ∀ (s t : State) (b a : Byte), s.status ≠ .idle → exec (.feed b) s = .next t →
    exec (.feed b) { s with cfg := { s.cfg with start := a } } =
      .next { t with cfg := { t.cfg with start := a } } ∧
    t.status ≠ .waitId

/-- R32, R33: what a feed does to the payload buffer, index by index. -/
def Obligations.FeedWritesPayloadOnlyByAppendOrClear : Prop :=
  ∀ (s t : State) (b : Byte), exec (.feed b) s = .next t →
    (s.status = .waitData →
      t.payload.length = s.payload.length + 1 ∧ payloadRead t s.payload.length = some b ∧
      ∀ i, i ≠ s.payload.length → payloadRead t i = payloadRead s i) ∧
    (s.status = .idle ∧ b = s.cfg.start → ∀ i, payloadRead t i = none) ∧
    (s.status ≠ .waitData → ¬(s.status = .idle ∧ b = s.cfg.start) → ∀ i, payloadRead t i = payloadRead s i)

/-- R23, R36: no feed changes the configuration (table included), the observers or what the host does next. -/
def Obligations.FeedKeepsConfiguration : Prop :=
  ∀ (s t : State) (b : Byte), exec (.feed b) s = .next t →
    t.cfg = s.cfg ∧ t.observers = s.observers ∧ t.input = s.input ∧ t.started = true

/-- R126, R81: under `Bounded` framing, without the end marker, the payload grows by every byte and the machine stays. -/
def Obligations.UnterminatedMessageKeepsGrowing : Prop :=
  ∀ (s : State) (d : Desc) (bs : List Byte), configValid s.cfg = true → s.status = .waitData → s.sel = some d →
    d.framing = .bounded → s.cfg.stop ∉ bs → roomFor s (s.payload.length + bs.length) →
    ∃ (t : State) (outs : List Output),
      feedAll s bs = some (t, outs) ∧ resultsOf outs = List.replicate bs.length (some .parsing) ∧
      t.status = .waitData ∧ t.sel = s.sel ∧ t.remaining = s.remaining ∧ t.payload = s.payload ++ bs ∧
      t.cks = if d.cks = true then s.cks + checksum bs else s.cks

/-- R73, R133: k stray bytes give k `SyncError` results, and do not disturb the previous message's payload. -/
def Obligations.StrayBytesKeepThePayloadWindow : Prop :=
  ∀ (s : State) (bs : List Byte), configValid s.cfg = true → s.status = .idle → s.cfg.start ∉ bs →
    ∃ (t : State) (outs : List Output),
      feedAll s bs = some (t, outs) ∧
      resultsOf outs = List.replicate bs.length (some (.error .syncError none)) ∧
      t.status = .idle ∧ t.payload = s.payload ∧ t.cks = s.cks ∧ t.remaining = s.remaining ∧ t.sel = s.sel ∧
      t.cfg = s.cfg

/-! ### The Notification Channel -/

/-- R100, R102: each feed fires the one event that carries its result, and none for `Parsing`; over a run the events are as
many as the terminal results. -/
def Obligations.EveryResultFiresItsEvent : Prop :=
  (∀ (s t : State) (b : Byte), exec (.feed b) s = .next t →
    (∀ i p, t.out.result = some (.completed i p) ↔ t.out.event = some (.completed i p)) ∧
    (∀ k o, t.out.result = some (.error k o) ↔ t.out.event = some (.error k o)) ∧
    (t.out.result = some .parsing ↔ t.out.event = none)) ∧
  (∀ (s t : State) (bs : List Byte) (outs : List Output), feedAll s bs = some (t, outs) →
    outs.length = bs.length ∧
    (outs.filter (fun o => o.event.isSome)).length =
      (outs.filter (fun o => decide (o.result ≠ some .parsing))).length)

/-- R101, R103: before the feed returns, every observer is served with the event exactly once, in an order left open. -/
def Obligations.EveryObserverSeesEachEventOnce : Prop :=
  ∀ (s t : State) (b : Byte), exec (.feed b) s = .next t →
    (t.out.event = none → t.out.deliveries = []) ∧
    (∀ e, t.out.event = some e →
      (t.out.deliveries.map Prod.fst).Perm (List.range s.observers) ∧ ∀ x ∈ t.out.deliveries, x.2 = e)

/-! ### Setup, phases and the port level -/

/-- R134, R37, R119: during parsing no registration and no build writes the table; R124: no step changes the markers; and only
a reset ends the phase, which begins a new setup with an empty table (R120). That the number of observers stays is the model's
choice (log entry 9, D18: late subscription is refused). -/
def Obligations.TableIsClosedDuringParsing : Prop :=
  (∀ (s : State) (i : Byte) (f : Framing) (c : Bool) (rs : List Req), s.started = true →
    exec (.registerOk i f c) s = .refused .tableWriteWhileParsing ∧
    exec (.registerSizeNotSet i f c) s = .refused .tableWriteWhileParsing ∧
    exec (.registerIdAliasing i f c) s = .refused .tableWriteWhileParsing ∧
    exec (.registerRefused i f c) s = .refused .tableWriteWhileParsing ∧
    exec (.build rs) s = .refused .tableWriteWhileParsing) ∧
  (∀ s t : State, s.started = true → step s = .next t →
    (t.started = true ∧ t.cfg = s.cfg ∧ t.observers = s.observers) ∨
    ((∃ i rest, s.input = i :: rest ∧ decode s.view i = .instr .reset) ∧
      t.started = false ∧ t.cfg.table = [] ∧ t.status = .idle ∧ t.sel = none))

/-- Launches to which the spec gives no meaning: a feed under an invalid configuration (R23), one that would exceed a finite
buffer (R34), one in a corrupted state (D22; which feeds these are is the model's choice, log entry 12), and a build that
reaches a length that cannot be held (R70, R67). The two `notSelected` clauses, a transition and a registration outcome executed
where another is the selected one, are the model's choice (log entry 11). -/
def Obligations.LaunchesWithoutMeaningAreRefused : Prop :=
  (∀ (s : State) (b : Byte), configValid s.cfg = false → exec (.feed b) s = .refused .invalidConfig) ∧
  (∀ (s : State) (b : Byte) (m : Nat), configValid s.cfg = true → viewCoherent s.view → s.status = .waitData →
    s.cfg.payloadMax = some m → m ≤ s.payload.length → exec (.feed b) s = .refused .payloadOverflow) ∧
  (∀ (s : State) (b : Byte), configValid s.cfg = true → selectRow s.view b = none →
    exec (.feed b) s = .refused .corruptState) ∧
  (∀ (s : State), configValid s.cfg = true → s.status = .waitEoM → s.sel = none →
    exec (.feed s.cfg.stop) s = .refused .corruptState) ∧
  (∀ (s : State) (b : Byte) (r : Row), configValid s.cfg = true → ¬rowHolds s.view b r →
    exec (r.instr b) s = .refused .notSelected) ∧
  (∀ (s : State) (r : Req) (c : RegCase), s.started = false → registerCase s.cfg s.cfg.table r ≠ c →
    exec (registerInstr c r) s = .refused .notSelected) ∧
  (∀ (s : State) (pre post : List Req) (q : Req) (u : Table), s.started = false →
    buildFrom s.cfg [] pre = .done (.ok u) → q.framing ≠ .sized 0 → lengthHeld s.cfg q.framing = false →
    exec (.build (pre ++ q :: post)) s = .refused .lengthTooLong)

/-- R125, R124, R128: the acts of setup that no row of the opcode table names. In setup the host fixes the markers and observers
subscribe; in parsing the markers are held constant and a change is refused; overlapping feeds are always refused. The model's
choices: these acts are inputs of their own (log entry 3), and a late subscription is refused (log entry 9; D18 leaves it
unsaid). -/
def Obligations.SetupActsAndTheirLimits : Prop :=
  (∀ (s : State) (a z : Byte) (rest : List Input), s.input = .markers a z :: rest →
    (s.started = false →
      step s = .next { s with cfg := { s.cfg with start := a, stop := z }, input := rest, out := {} }) ∧
    (s.started = true → a = s.cfg.start → z = s.cfg.stop → step s = .next { s with input := rest, out := {} }) ∧
    (s.started = true → (a ≠ s.cfg.start ∨ z ≠ s.cfg.stop) → step s = .refused .markerChangeWhileParsing)) ∧
  (∀ (s : State) (rest : List Input), s.input = .subscribe :: rest →
    (s.started = false → step s = .next { s with observers := s.observers + 1, input := rest, out := {} }) ∧
    (s.started = true → step s = .refused .subscribeWhileParsing)) ∧
  (∀ (s : State) (bs : List Byte) (rest : List Input), s.input = .overlap bs :: rest →
    step s = .refused .overlappingFeeds)

/-- R58, R61, R120: what a clock edge is. The last two clauses hold whatever address the payload read port presents (R60): an edge
whose act is refused is refused, both ports at once in setup among them. An edge whose act answers while an address is presented
is `PayloadPortShowsThePayload`. -/
def Obligations.ClockEdgePriorities : Prop :=
  (∀ (s : State) (p : Pins) (rest : List Input), s.input = .cycle p :: rest → p.plRaddr = none →
    (p.rst = true → step s = exec .reset { s with input := rest }) ∧
    (p.rst = false → p.regValid = true → p.inValid = true → s.started = false →
      step s = .refused .simultaneousPorts) ∧
    (p.rst = false → p.inValid = true → (p.regValid = false ∨ s.started = true) →
      step s = exec (.feed p.inByte) { s with input := rest }) ∧
    (p.rst = false → p.inValid = false → (p.regValid = false ∨ s.started = true) →
      step s = .next { s with input := rest, out := {} }) ∧
    (p.rst = false → p.inValid = false → p.regValid = true → s.started = false →
      step s = exec (registerInstr (registerCase s.cfg s.cfg.table p.req) p.req) { s with input := rest })) ∧
  (∀ (s : State) (p : Pins) (rest : List Input), s.input = .cycle p :: rest → p.rst = false → p.regValid = true →
    p.inValid = true → s.started = false → step s = .refused .simultaneousPorts) ∧
  (∀ (s : State) (p : Pins) (rest : List Input) (r : Refusal), s.input = .cycle p :: rest →
    runDecoded (decode s.view (.cycle p)) { s with input := rest } = .refused r → step s = .refused r)

/-- R59, R104, with the numbers of R54 and R55: the result outputs and strobes of a feed. -/
def Obligations.ResultPinsFollowTheResult : Prop :=
  ∀ (s t : State) (b : Byte), exec (.feed b) s = .next t →
    ((resPins t.out).evtCompleted = true ↔ ∃ i p, t.out.result = some (.completed i p)) ∧
    ((resPins t.out).evtError = true ↔ ∃ k o, t.out.result = some (.error k o)) ∧
    ¬((resPins t.out).evtCompleted = true ∧ (resPins t.out).evtError = true) ∧
    (∀ i p, t.out.result = some (.completed i p) →
      (resPins t.out).resKind = 1 ∧ (resPins t.out).resId = i ∧ (resPins t.out).resErr = 0) ∧
    (∀ k o, t.out.result = some (.error k o) →
      (resPins t.out).resKind = 2 ∧ (resPins t.out).resId = 0 ∧
      (resPins t.out).resErr =
        match k with
        | .syncError => 0
        | .missingId => 1
        | .checksum => 2
        | .missingEom => 3
        | .formatError => 4) ∧
    (t.out.result = some .parsing →
      (resPins t.out).resKind = 0 ∧ (resPins t.out).resErr = 0 ∧ (resPins t.out).resId = 0) ∧
    ((resPins t.out).resObsValid = true ↔
      ∃ k o, t.out.result = some (.error k o) ∧ (k = .checksum ∨ k = .missingEom ∨ k = .formatError)) ∧
    (resPins t.out).resObs = (if (resPins t.out).resObsValid = true then b else 0)

/-- R53, R56, R57: the status codes lose nothing and are the numbers of R53, the registration-outcome codes are the numbers of R57,
and the slot of an identifier has the fields of R56 and loses nothing. (What the slot of an unregistered identifier shows beside
`valid` is the model's choice, log entry 16, and no clause speaks of it.) -/
def Obligations.PortCodesRoundTrip : Prop :=
  (∀ c : BitVec 3, statusCode (statusOfCode c) = c) ∧
  (∀ a : Status, statusOfCode (statusCode a) = a) ∧
  (statusCode .idle = 0 ∧ statusCode .waitId = 1 ∧ statusCode .waitData = 2 ∧ statusCode .waitCheckSum = 3 ∧
    statusCode .waitEoM = 4) ∧
  (∀ d, registerCode (.ok d) = 0) ∧ registerCode (.err .sizeNotSet) = 1 ∧ registerCode (.err .idAliasing) = 2 ∧
  (∀ (t : Table) (i : Byte), slotDesc i (slotOf t i) = tableRead t i) ∧
  (∀ (t : Table) (i : Byte), (slotOf t i).valid = (tableRead t i).isSome) ∧
  (∀ (t : Table) (i : Byte) (d : Desc), tableRead t i = some d →
    (slotOf t i).cks = d.cks ∧
    (∀ n, d.framing = .sized n → (slotOf t i).sized = true ∧ (slotOf t i).length = n) ∧
    (d.framing = .bounded → (slotOf t i).sized = false ∧ (slotOf t i).length = 0))

/-- R60: the payload read port shows the addressed byte of the payload as it stood before the edge, and disturbs nothing. At
or beyond the length it shows a value the spec leaves open (log entry 8). -/
def Obligations.PayloadPortShowsThePayload : Prop :=
  ∀ (s t : State) (p : Pins) (rest : List Input) (a : Nat), s.input = .cycle p :: rest → p.plRaddr = some a →
    runDecoded (decode s.view (.cycle p)) { s with input := rest } = .next t →
    ∃ (x : Byte) (k : Nat), step s = .next { t with out := { t.out with rdata := some x }, free := k } ∧
      (∀ b, payloadRead s a = some b → x = b ∧ k = t.free)
end

