-- ==== Sys2Proof/Laws/Arithmetic.lean ====
section
/-! SUPPORT. The checksum and the countdown (R91, R92, R97). -/

namespace Sys2Proof.Machine

@[simp] theorem checksum_nil : checksum [] = 0 := rfl

/-- Accumulating with wrap agrees with reducing the total (R91). -/
theorem checksum_append_singleton (p : List Byte) (b : Byte) :
    checksum (p ++ [b]) = checksumStep (checksum p) b := by
  simp only [checksum, checksumStep, List.map_append, List.map_cons, List.map_nil, List.sum_append, List.sum_cons,
    List.sum_nil, Nat.add_zero]
  rw [BitVec.ofNat_add, BitVec.ofNat_toNat, BitVec.setWidth_eq]

theorem moreExpected_iff (n : Nat) : moreExpected n = true ↔ 2 ≤ n := by
  simp [moreExpected, countdown]; omega

theorem lastExpected_iff (n : Nat) : lastExpected n = true ↔ n = 1 := by
  simp [lastExpected, countdown]; omega

end Sys2Proof.Machine
end

