-- ==== Sys2Proof/Laws/Notify.lean ====
section
/-! SUPPORT. The delivery order holds every observer exactly once, whatever the free values are (R103). -/

namespace Sys2Proof.Machine

theorem insertAt_perm (x : Nat) (l : List Nat) (p : Nat) : (insertAt x l p).Perm (x :: l) := by
  induction l generalizing p with
  | nil => exact .refl _
  | cons y ys ih =>
    cases p with
    | zero => exact .refl _
    | succ p => exact ((ih p).cons y).trans (List.Perm.swap x y ys)

theorem observerOrder_perm (k n : Nat) : (observerOrder k n).Perm (List.range n) := by
  induction n with
  | zero => exact .refl _
  | succ n ih =>
    rw [List.range_succ]
    exact (insertAt_perm n _ _).trans ((ih.cons n).trans (List.perm_append_singleton n _).symm)

end Sys2Proof.Machine
end

