-- ==== Sys2Proof/Laws/State.lean ====
section
/-! SUPPORT. One lemma per field of State per update, true by rfl. -/

namespace Sys2Proof.Machine

/-! `PayloadClear` writes the payload alone (R32). -/

@[simp] theorem payloadClear_status (s : State) : (payloadClear s).status = s.status := rfl
@[simp] theorem payloadClear_payload (s : State) : (payloadClear s).payload = [] := rfl
@[simp] theorem payloadClear_remaining (s : State) : (payloadClear s).remaining = s.remaining := rfl
@[simp] theorem payloadClear_cks (s : State) : (payloadClear s).cks = s.cks := rfl
@[simp] theorem payloadClear_sel (s : State) : (payloadClear s).sel = s.sel := rfl
@[simp] theorem payloadClear_cfg (s : State) : (payloadClear s).cfg = s.cfg := rfl
@[simp] theorem payloadClear_started (s : State) : (payloadClear s).started = s.started := rfl
@[simp] theorem payloadClear_observers (s : State) : (payloadClear s).observers = s.observers := rfl
@[simp] theorem payloadClear_out (s : State) : (payloadClear s).out = s.out := rfl
@[simp] theorem payloadClear_input (s : State) : (payloadClear s).input = s.input := rfl
@[simp] theorem payloadClear_free (s : State) : (payloadClear s).free = s.free := rfl

/-! `PayloadAppend` writes the payload alone (R32). -/

@[simp] theorem payloadAppend_status (b : Byte) (s : State) : (payloadAppend b s).status = s.status := rfl
@[simp] theorem payloadAppend_payload (b : Byte) (s : State) : (payloadAppend b s).payload = s.payload ++ [b] := rfl
@[simp] theorem payloadAppend_remaining (b : Byte) (s : State) : (payloadAppend b s).remaining = s.remaining := rfl
@[simp] theorem payloadAppend_cks (b : Byte) (s : State) : (payloadAppend b s).cks = s.cks := rfl
@[simp] theorem payloadAppend_sel (b : Byte) (s : State) : (payloadAppend b s).sel = s.sel := rfl
@[simp] theorem payloadAppend_cfg (b : Byte) (s : State) : (payloadAppend b s).cfg = s.cfg := rfl
@[simp] theorem payloadAppend_started (b : Byte) (s : State) : (payloadAppend b s).started = s.started := rfl
@[simp] theorem payloadAppend_observers (b : Byte) (s : State) : (payloadAppend b s).observers = s.observers := rfl
@[simp] theorem payloadAppend_out (b : Byte) (s : State) : (payloadAppend b s).out = s.out := rfl
@[simp] theorem payloadAppend_input (b : Byte) (s : State) : (payloadAppend b s).input = s.input := rfl
@[simp] theorem payloadAppend_free (b : Byte) (s : State) : (payloadAppend b s).free = s.free := rfl

/-! The common part of `WaitData` writes the payload and the accumulator (R77). -/

@[simp] theorem accumulate_status (b : Byte) (s : State) : (accumulate b s).status = s.status := rfl
@[simp] theorem accumulate_payload (b : Byte) (s : State) : (accumulate b s).payload = s.payload ++ [b] := rfl
@[simp] theorem accumulate_remaining (b : Byte) (s : State) : (accumulate b s).remaining = s.remaining := rfl
@[simp] theorem accumulate_cks (b : Byte) (s : State) : (accumulate b s).cks = if selChecks s then checksumStep s.cks b else s.cks := rfl
@[simp] theorem accumulate_sel (b : Byte) (s : State) : (accumulate b s).sel = s.sel := rfl
@[simp] theorem accumulate_cfg (b : Byte) (s : State) : (accumulate b s).cfg = s.cfg := rfl
@[simp] theorem accumulate_started (b : Byte) (s : State) : (accumulate b s).started = s.started := rfl
@[simp] theorem accumulate_observers (b : Byte) (s : State) : (accumulate b s).observers = s.observers := rfl
@[simp] theorem accumulate_out (b : Byte) (s : State) : (accumulate b s).out = s.out := rfl
@[simp] theorem accumulate_input (b : Byte) (s : State) : (accumulate b s).input = s.input := rfl
@[simp] theorem accumulate_free (b : Byte) (s : State) : (accumulate b s).free = s.free := rfl

/-! Selecting a descriptor writes `sel`, `remaining` and `status` (R74, R75). -/

@[simp] theorem selectDescriptor_status (d : Desc) (s : State) : (selectDescriptor d s).status = .waitData := rfl
@[simp] theorem selectDescriptor_payload (d : Desc) (s : State) : (selectDescriptor d s).payload = s.payload := rfl
@[simp] theorem selectDescriptor_remaining (d : Desc) (s : State) : (selectDescriptor d s).remaining = lengthOperand d.framing := rfl
@[simp] theorem selectDescriptor_cks (d : Desc) (s : State) : (selectDescriptor d s).cks = s.cks := rfl
@[simp] theorem selectDescriptor_sel (d : Desc) (s : State) : (selectDescriptor d s).sel = some d := rfl
@[simp] theorem selectDescriptor_cfg (d : Desc) (s : State) : (selectDescriptor d s).cfg = s.cfg := rfl
@[simp] theorem selectDescriptor_started (d : Desc) (s : State) : (selectDescriptor d s).started = s.started := rfl
@[simp] theorem selectDescriptor_observers (d : Desc) (s : State) : (selectDescriptor d s).observers = s.observers := rfl
@[simp] theorem selectDescriptor_out (d : Desc) (s : State) : (selectDescriptor d s).out = s.out := rfl
@[simp] theorem selectDescriptor_input (d : Desc) (s : State) : (selectDescriptor d s).input = s.input := rfl
@[simp] theorem selectDescriptor_free (d : Desc) (s : State) : (selectDescriptor d s).free = s.free := rfl

/-! The end of a feed writes no session field (R71). -/

@[simp] theorem finishFeed_status (r : Result) (s : State) : (finishFeed r s).status = s.status := rfl
@[simp] theorem finishFeed_payload (r : Result) (s : State) : (finishFeed r s).payload = s.payload := rfl
@[simp] theorem finishFeed_remaining (r : Result) (s : State) : (finishFeed r s).remaining = s.remaining := rfl
@[simp] theorem finishFeed_cks (r : Result) (s : State) : (finishFeed r s).cks = s.cks := rfl
@[simp] theorem finishFeed_sel (r : Result) (s : State) : (finishFeed r s).sel = s.sel := rfl
@[simp] theorem finishFeed_cfg (r : Result) (s : State) : (finishFeed r s).cfg = s.cfg := rfl
@[simp] theorem finishFeed_started (r : Result) (s : State) : (finishFeed r s).started = true := rfl
@[simp] theorem finishFeed_observers (r : Result) (s : State) : (finishFeed r s).observers = s.observers := rfl
@[simp] theorem finishFeed_out (r : Result) (s : State) : (finishFeed r s).out = feedOutput s.free s.observers r := rfl
@[simp] theorem finishFeed_input (r : Result) (s : State) : (finishFeed r s).input = s.input := rfl
@[simp] theorem finishFeed_free (r : Result) (s : State) : (finishFeed r s).free = s.free + freeUsed r := rfl

/-! A step without a feed writes the outputs alone (R58). -/

@[simp] theorem hold_status (s : State) : (hold s).status = s.status := rfl
@[simp] theorem hold_payload (s : State) : (hold s).payload = s.payload := rfl
@[simp] theorem hold_remaining (s : State) : (hold s).remaining = s.remaining := rfl
@[simp] theorem hold_cks (s : State) : (hold s).cks = s.cks := rfl
@[simp] theorem hold_sel (s : State) : (hold s).sel = s.sel := rfl
@[simp] theorem hold_cfg (s : State) : (hold s).cfg = s.cfg := rfl
@[simp] theorem hold_started (s : State) : (hold s).started = s.started := rfl
@[simp] theorem hold_observers (s : State) : (hold s).observers = s.observers := rfl
@[simp] theorem hold_out (s : State) : (hold s).out = {} := rfl
@[simp] theorem hold_input (s : State) : (hold s).input = s.input := rfl
@[simp] theorem hold_free (s : State) : (hold s).free = s.free := rfl

/-! What the decoder sees. -/

@[simp] theorem view_cfg (s : State) : s.view.cfg = s.cfg := rfl
@[simp] theorem view_started (s : State) : s.view.started = s.started := rfl
@[simp] theorem view_status (s : State) : s.view.status = s.status := rfl
@[simp] theorem view_remaining (s : State) : s.view.remaining = s.remaining := rfl
@[simp] theorem view_cks (s : State) : s.view.cks = s.cks := rfl
@[simp] theorem view_sel (s : State) : s.view.sel = s.sel := rfl

/-! The read port writes the outputs and the free-value counter alone (R60). -/

@[simp] theorem readPort_status (i : Input) (s t : State) : (readPort i s t).status = t.status := by
  unfold readPort; split <;> [rfl; (split <;> rfl)]
@[simp] theorem readPort_payload (i : Input) (s t : State) : (readPort i s t).payload = t.payload := by
  unfold readPort; split <;> [rfl; (split <;> rfl)]
@[simp] theorem readPort_remaining (i : Input) (s t : State) : (readPort i s t).remaining = t.remaining := by
  unfold readPort; split <;> [rfl; (split <;> rfl)]
@[simp] theorem readPort_cks (i : Input) (s t : State) : (readPort i s t).cks = t.cks := by
  unfold readPort; split <;> [rfl; (split <;> rfl)]
@[simp] theorem readPort_sel (i : Input) (s t : State) : (readPort i s t).sel = t.sel := by
  unfold readPort; split <;> [rfl; (split <;> rfl)]
@[simp] theorem readPort_cfg (i : Input) (s t : State) : (readPort i s t).cfg = t.cfg := by
  unfold readPort; split <;> [rfl; (split <;> rfl)]
@[simp] theorem readPort_started (i : Input) (s t : State) : (readPort i s t).started = t.started := by
  unfold readPort; split <;> [rfl; (split <;> rfl)]
@[simp] theorem readPort_observers (i : Input) (s t : State) : (readPort i s t).observers = t.observers := by
  unfold readPort; split <;> [rfl; (split <;> rfl)]
@[simp] theorem readPort_input (i : Input) (s t : State) : (readPort i s t).input = t.input := by
  unfold readPort; split <;> [rfl; (split <;> rfl)]
@[simp] theorem readPort_out_result (i : Input) (s t : State) : (readPort i s t).out.result = t.out.result := by
  unfold readPort; split <;> [rfl; (split <;> rfl)]
@[simp] theorem readPort_out_event (i : Input) (s t : State) : (readPort i s t).out.event = t.out.event := by
  unfold readPort; split <;> [rfl; (split <;> rfl)]
@[simp] theorem readPort_out_deliveries (i : Input) (s t : State) : (readPort i s t).out.deliveries = t.out.deliveries := by
  unfold readPort; split <;> [rfl; (split <;> rfl)]
@[simp] theorem readPort_out_reg (i : Input) (s t : State) : (readPort i s t).out.reg = t.out.reg := by
  unfold readPort; split <;> [rfl; (split <;> rfl)]
@[simp] theorem readPort_out_found (i : Input) (s t : State) : (readPort i s t).out.found = t.out.found := by
  unfold readPort; split <;> [rfl; (split <;> rfl)]
@[simp] theorem readPort_out_built (i : Input) (s t : State) : (readPort i s t).out.built = t.out.built := by
  unfold readPort; split <;> [rfl; (split <;> rfl)]

end Sys2Proof.Machine
end

