-- ==== Sys2Proof/Laws/Ops.lean ====
section
/-! SUPPORT. For each shared operation, once, what it does when it answers a next state. -/

namespace Sys2Proof.Machine

/-- A feed transition that answers had a valid configuration and its row's condition (R23, R50). -/
theorem transition_next {c : Bool} {s t : State} {o : StepOut} :
    transition c s o = .next t ↔ configValid s.cfg = true ∧ c = true ∧ o = .next t := by
  unfold transition
  cases configValid s.cfg <;> cases c <;> simp

/-- A `WaitData` transition that answers appended its byte (R77). -/
theorem dataTransition_next {c : Bool} {b : Byte} {s t : State} {f : State → State} :
    dataTransition c b s f = .next t ↔
      configValid s.cfg = true ∧ s.status = .waitData ∧ c = true ∧ payloadFits s = true ∧
        t = finishFeed .parsing (f (accumulate b s)) := by
  unfold dataTransition
  rw [transition_next]
  cases payloadFits s <;> simp [and_assoc, @eq_comm _ t]

/-- Error entry always answers (R111). -/
theorem raiseError_next {k : ErrKind} {o : Option Byte} {s t : State} :
    raiseError k o s = .next t ↔ t = finishFeed (.error k o) { s with status := .idle, sel := none } := by
  simp [raiseError, eq_comm]

/-- Completion answers where a descriptor is selected (R84, R87). -/
theorem completeMessage_next {s t : State} :
    completeMessage s = .next t ↔
      ∃ d, s.sel = some d ∧ t = finishFeed (.completed d.id s.payload) { s with status := .idle, sel := none } := by
  unfold completeMessage
  cases s.sel <;> simp [eq_comm]

/-- The `WaitId` transitions that find the identifier select its descriptor (R74, R75). -/
theorem identify_next {w : Framing → Bool} {b : Byte} {s t : State} :
    identify w b s = .next t ↔
      ∃ d, tableRead s.cfg.table b = some d ∧ configValid s.cfg = true ∧ s.status = .waitId ∧ w d.framing = true ∧
        t = finishFeed .parsing (selectDescriptor d s) := by
  unfold identify
  cases tableRead s.cfg.table b with
  | none => simp [transition_next]
  | some d => simp [transition_next, and_assoc, @eq_comm _ t]

/-- A table write answers in setup only (R37). -/
theorem inSetup_next {s t : State} {o : StepOut} :
    inSetup s o = .next t ↔ s.started = false ∧ o = .next t := by
  unfold inSetup
  cases s.started <;> simp

/-- A registration row answers in setup, for a request of its case (R115). -/
theorem registration_next {c : RegCase} {r : Req} {s t : State} {o : StepOut} :
    registration c r s o = .next t ↔
      s.started = false ∧ registerCase s.cfg s.cfg.table r = c ∧ o = .next t := by
  unfold registration
  rw [inSetup_next]
  by_cases h : registerCase s.cfg s.cfg.table r = c <;> simp [h]

/-- Fixing the markers: free in setup, only the same values afterwards (R124, R125). -/
theorem fixMarkers_next {a z : Byte} {s t : State} :
    fixMarkers a z s = .next t ↔
      (s.started = false ∧ t = hold { s with cfg := { s.cfg with start := a, stop := z } }) ∨
      (s.started = true ∧ a = s.cfg.start ∧ z = s.cfg.stop ∧ t = hold s) := by
  unfold fixMarkers
  cases s.started
  · simp [eq_comm]
  · by_cases h : a = s.cfg.start ∧ z = s.cfg.stop
    · simp [h, eq_comm]
    · simp only [if_true, beq_iff_eq, Bool.and_eq_true, if_neg h]
      simp only [reduceCtorEq, false_iff]
      rintro (⟨h1, _⟩ | ⟨_, h1, h2, _⟩)
      · cases h1
      · exact h ⟨h1, h2⟩

/-- Subscribing answers in setup only (R103). -/
theorem subscribe_next {s t : State} :
    subscribe s = .next t ↔ s.started = false ∧ t = hold { s with observers := s.observers + 1 } := by
  unfold subscribe
  cases s.started <;> simp [eq_comm]

/-- The read port follows a step that answers and changes no other outcome (R60). -/
theorem withReadPort_next {i : Input} {s u : State} {o : StepOut} :
    withReadPort i s o = .next u ↔ ∃ t, o = .next t ∧ u = readPort i s t := by
  unfold withReadPort
  cases o <;> simp [eq_comm]

@[simp] theorem feedOutput_result (k n : Nat) (r : Result) : (feedOutput k n r).result = some r := rfl
@[simp] theorem feedOutput_event (k n : Nat) (r : Result) : (feedOutput k n r).event = eventOf r := rfl
@[simp] theorem feedOutput_deliveries (k n : Nat) (r : Result) :
    (feedOutput k n r).deliveries = deliver k n (eventOf r) := rfl

end Sys2Proof.Machine
end

