-- ==== Sys2Proof/Laws/PerInstr.lean ====
section
/-! SUPPORT. Statements about every instruction, one lemma per constructor. -/

namespace Sys2Proof.Laws

/-- Whether an input is a byte of the stream. -/
def isStreamByte : Input → Bool
  | .byte _ => true
  | _ => false

/-- The byte a feed transition carries; `none` for an operation. -/
def transitionByte : Instr → Option Byte
  | .idleSom b => some b
  | .idleSync b => some b
  | .idHitSized b => some b
  | .idHitBounded b => some b
  | .idMiss b => some b
  | .dataSizedMore b => some b
  | .dataSizedLastCk b => some b
  | .dataSizedLastNock b => some b
  | .dataBoundedMore b => some b
  | .dataBoundedTermCk b => some b
  | .dataBoundedTermNock b => some b
  | .cksMatchSized b => some b
  | .cksMatchBounded b => some b
  | .cksMismatch b => some b
  | .eomMatch b => some b
  | .eomMismatch b => some b
  | .default b => some b
  | .feed _ => none
  | .registerOk _ _ _ => none
  | .registerSizeNotSet _ _ _ => none
  | .registerIdAliasing _ _ _ => none
  | .registerRefused _ _ _ => none
  | .lookup _ => none
  | .build _ => none
  | .reset => none

/-- Exactly the feed transitions are encoded as a stream byte, and that byte is their operand, all eight bits of it (R50:
`bbbbbbbb`); the operations have no stream encoding (R50, R63). -/
def EncodingClass.Statement (i : Instr) : Prop :=
  match transitionByte i with
  | some b => encode i = .byte b
  | none => isStreamByte (encode i) = false

theorem EncodingClass.idleSom (b : Byte) : EncodingClass.Statement (.idleSom b) := rfl
theorem EncodingClass.idleSync (b : Byte) : EncodingClass.Statement (.idleSync b) := rfl
theorem EncodingClass.idHitSized (b : Byte) : EncodingClass.Statement (.idHitSized b) := rfl
theorem EncodingClass.idHitBounded (b : Byte) : EncodingClass.Statement (.idHitBounded b) := rfl
theorem EncodingClass.idMiss (b : Byte) : EncodingClass.Statement (.idMiss b) := rfl
theorem EncodingClass.dataSizedMore (b : Byte) : EncodingClass.Statement (.dataSizedMore b) := rfl
theorem EncodingClass.dataSizedLastCk (b : Byte) : EncodingClass.Statement (.dataSizedLastCk b) := rfl
theorem EncodingClass.dataSizedLastNock (b : Byte) : EncodingClass.Statement (.dataSizedLastNock b) := rfl
theorem EncodingClass.dataBoundedMore (b : Byte) : EncodingClass.Statement (.dataBoundedMore b) := rfl
theorem EncodingClass.dataBoundedTermCk (b : Byte) : EncodingClass.Statement (.dataBoundedTermCk b) := rfl
theorem EncodingClass.dataBoundedTermNock (b : Byte) : EncodingClass.Statement (.dataBoundedTermNock b) := rfl
theorem EncodingClass.cksMatchSized (b : Byte) : EncodingClass.Statement (.cksMatchSized b) := rfl
theorem EncodingClass.cksMatchBounded (b : Byte) : EncodingClass.Statement (.cksMatchBounded b) := rfl
theorem EncodingClass.cksMismatch (b : Byte) : EncodingClass.Statement (.cksMismatch b) := rfl
theorem EncodingClass.eomMatch (b : Byte) : EncodingClass.Statement (.eomMatch b) := rfl
theorem EncodingClass.eomMismatch (b : Byte) : EncodingClass.Statement (.eomMismatch b) := rfl
theorem EncodingClass.default (b : Byte) : EncodingClass.Statement (.default b) := rfl
theorem EncodingClass.feed (b : Byte) : EncodingClass.Statement (.feed b) := rfl
theorem EncodingClass.registerOk (id : Byte) (framing : Framing) (cks : Bool) :
    EncodingClass.Statement (.registerOk id framing cks) := by cases framing <;> rfl
theorem EncodingClass.registerSizeNotSet (id : Byte) (framing : Framing) (cks : Bool) :
    EncodingClass.Statement (.registerSizeNotSet id framing cks) := by cases framing <;> rfl
theorem EncodingClass.registerIdAliasing (id : Byte) (framing : Framing) (cks : Bool) :
    EncodingClass.Statement (.registerIdAliasing id framing cks) := by cases framing <;> rfl
theorem EncodingClass.registerRefused (id : Byte) (framing : Framing) (cks : Bool) :
    EncodingClass.Statement (.registerRefused id framing cks) := by cases framing <;> rfl
theorem EncodingClass.lookup (id : Byte) : EncodingClass.Statement (.lookup id) := rfl
theorem EncodingClass.build (reqs : List Req) : EncodingClass.Statement (.build reqs) := rfl
theorem EncodingClass.reset : EncodingClass.Statement .reset := rfl

end Sys2Proof.Laws
end

