-- ==== Sys2Proof/Laws/Table.lean ====
section
/-! SUPPORT. What the operations of the descriptor table do (R35, R64 to R70); the canonical form is kept. -/

namespace Sys2Proof.Machine

theorem tableRead_id {t : Table} {i : Byte} {d : Desc} (h : tableRead t i = some d) : d.id = i := by
  induction t with
  | nil => cases h
  | cons e es ih =>
    simp only [tableRead] at h
    split at h
    · rename_i he
      cases h
      exact beq_iff_eq.1 he
    · exact ih h

theorem tableRead_mem {t : Table} {i : Byte} {d : Desc} (h : tableRead t i = some d) : d ∈ t := by
  induction t with
  | nil => cases h
  | cons e es ih =>
    simp only [tableRead] at h
    split at h
    · cases h; simp
    · exact List.mem_cons_of_mem _ (ih h)

theorem mem_tableInsert {d e : Desc} {t : Table} : e ∈ tableInsert d t ↔ e = d ∨ e ∈ t := by
  induction t with
  | nil => simp [tableInsert]
  | cons x xs ih =>
    simp only [tableInsert]
    split
    · simp
    · simp only [List.mem_cons, ih]; tauto

theorem tableRead_none {t : Table} {i : Byte} : tableRead t i = none ↔ ∀ e ∈ t, e.id ≠ i := by
  induction t with
  | nil => simp [tableRead]
  | cons e es ih =>
    simp only [tableRead]
    split
    · simp_all
    · simp_all

/-- Insertion of a new identifier: it reads as the new descriptor, every other identifier as before (R65). -/
theorem tableRead_tableInsert {d : Desc} {t : Table} (hn : tableRead t d.id = none) (i : Byte) :
    tableRead (tableInsert d t) i = if i = d.id then some d else tableRead t i := by
  induction t with
  | nil => simp [tableInsert, tableRead, @eq_comm _ i]
  | cons x xs ih =>
    rw [tableRead_none] at hn
    have hx : x.id ≠ d.id := hn x (by simp)
    have hxs : tableRead xs d.id = none := tableRead_none.2 (fun e he => hn e (by simp [he]))
    simp only [tableInsert]
    split
    · by_cases h : i = d.id
      · simp [tableRead, h]
      · simp [tableRead, h, Ne.symm h]
    · by_cases h : x.id = i
      · subst h; simp [tableRead, hx]
      · simp [tableRead, h, ih hxs]

/-- Insertion of a new identifier keeps the canonical form. -/
theorem tableSorted_tableInsert {d : Desc} {t : Table} (hs : tableSorted t = true)
    (hn : tableRead t d.id = none) : tableSorted (tableInsert d t) = true := by
  induction t with
  | nil => simp [tableInsert, tableSorted]
  | cons x xs ih =>
    simp only [tableSorted, Bool.and_eq_true, List.all_eq_true, decide_eq_true_eq] at hs
    rw [tableRead_none] at hn
    have hx : x.id ≠ d.id := hn x (by simp)
    have hxs : tableRead xs d.id = none := tableRead_none.2 (fun e he => hn e (by simp [he]))
    simp only [tableInsert]
    split
    · rename_i hlt
      simp only [tableSorted, Bool.and_eq_true, List.all_eq_true, decide_eq_true_eq]
      refine ⟨fun e he => ?_, hs⟩
      rcases List.mem_cons.1 he with rfl | he
      · exact hlt
      · exact BitVec.lt_trans hlt (hs.1 e he)
    · rename_i hge
      simp only [tableSorted, Bool.and_eq_true, List.all_eq_true, decide_eq_true_eq]
      refine ⟨fun e he => ?_, ih hs.2 hxs⟩
      rcases mem_tableInsert.1 he with rfl | he
      · have : x.id.toNat ≠ e.id.toNat := fun h => hx (BitVec.eq_of_toNat_eq h)
        simp only [BitVec.lt_def] at hge ⊢
        omega
      · exact hs.1 e he

/-- What a successful registration asks of its request (R65). -/
theorem registerCase_ok {cfg : Config} {t : Table} {r : Req} :
    registerCase cfg t r = .ok ↔
      r.framing.unset = false ∧ lengthHeld cfg r.framing = true ∧ tableRead t r.id = none := by
  unfold registerCase
  cases r.framing.unset <;> cases lengthHeld cfg r.framing <;> cases tableRead t r.id <;> simp

/-- What `IdAliasing` asks of its request (R68). -/
theorem registerCase_idAliasing {cfg : Config} {t : Table} {r : Req} :
    registerCase cfg t r = .idAliasing ↔
      r.framing.unset = false ∧ lengthHeld cfg r.framing = true ∧ (tableRead t r.id).isSome = true := by
  unfold registerCase
  cases r.framing.unset <;> cases lengthHeld cfg r.framing <;> cases tableRead t r.id <;> simp

/-- What `SizeNotSet` asks of its request (R66). -/
theorem registerCase_sizeNotSet {cfg : Config} {t : Table} {r : Req} :
    registerCase cfg t r = .sizeNotSet ↔ r.framing.unset = true := by
  unfold registerCase
  cases r.framing.unset <;> cases lengthHeld cfg r.framing <;> cases tableRead t r.id <;> simp

/-- What R67's refusal asks of its request. -/
theorem registerCase_tooLong {cfg : Config} {t : Table} {r : Req} :
    registerCase cfg t r = .tooLong ↔ r.framing.unset = false ∧ lengthHeld cfg r.framing = false := by
  unfold registerCase
  cases r.framing.unset <;> cases lengthHeld cfg r.framing <;> cases tableRead t r.id <;> simp

/-- The table after a build keeps every descriptor the instance had (R64). -/
theorem tableRead_installTable {old new : Table} {i : Byte} {d : Desc} (h : tableRead old i = some d) :
    tableRead (installTable old new) i = some d := by
  cases old with
  | nil => simp [tableRead] at h
  | cons e es => exact h

/-- What holds of the instance's table and of the built one holds of the table after the build. -/
theorem installTable_induct {P : Table → Prop} {old new : Table} (ho : P old) (hn : P new) :
    P (installTable old new) := by
  cases old with
  | nil => exact hn
  | cons e es => exact ho

/-- A build answers in setup: with the table it yields, or with the first failure and the table unchanged (R70). -/
theorem execBuild_next {rs : List Req} {s t : State} :
    execBuild rs s = .next t ↔
      s.started = false ∧
        ((∃ u, buildFrom s.cfg [] rs = .done (.ok u) ∧
            t = { s with
              cfg := { s.cfg with table := installTable s.cfg.table u }
              out := { built := some (.ok u) } }) ∨
          ∃ e, buildFrom s.cfg [] rs = .done (.err e) ∧ t = { s with out := { built := some (.err e) } }) := by
  unfold execBuild
  rw [inSetup_next]
  refine and_congr_right fun _ => ?_
  split <;> rename_i h <;> simp [h, eq_comm]

/-- A table that `BUILD`'s loop yields is in canonical form, if the one it starts from is. -/
theorem tableSorted_buildFrom {cfg : Config} {rs : List Req} {t u : Table} (hs : tableSorted t = true)
    (h : buildFrom cfg t rs = .done (.ok u)) : tableSorted u = true := by
  induction rs generalizing t with
  | nil => simp only [buildFrom, BuildEnd.done.injEq, BuildResult.ok.injEq] at h; exact h ▸ hs
  | cons r rs ih =>
    simp only [buildFrom] at h
    split at h
    · rename_i hc
      exact ih (tableSorted_tableInsert hs (registerCase_ok.1 hc).2.2) h
    all_goals simp at h

end Sys2Proof.Machine
end

