-- ==== Sys2Proof/Tests/Slice0.lean ====
section
/-! SUPPORT. Tests: ill-formed terms are refused, written-out words decode, single-step vectors of 95_test_vectors.md, and for
each obligation a state and operands that meet its hypotheses. -/

namespace Sys2Proof.Tests

open Sys2Proof.Machine

/-! ### Helpers -/

/-- `d1` to `d4` of 41_feed_transitions.md. -/
def d1 : Desc := ⟨0x01, .sized 2, true⟩
def d2 : Desc := ⟨0x02, .bounded, false⟩
def d3 : Desc := ⟨0x03, .sized 3, false⟩
def d4 : Desc := ⟨0x04, .bounded, true⟩

/-- `cfgA` of 95_test_vectors.md. -/
def cfgA : Config := { start := 0x7E, stop := 0x7F, table := [d1, d2, d3, d4], lenMax := none, payloadMax := none }

/-- A parsing state under `cfgA`, written (status, payload, cks, remaining, sel) as 95_test_vectors.md 2.2 writes it. -/
def stA (st : Status) (p : List Byte) (c : Byte) (r : Nat) (sel : Option Desc) : State :=
  { State.reset with status := st, payload := p, cks := c, remaining := r, sel := sel, cfg := cfgA, started := true }

/-- A state in setup under a table. -/
def setup (t : Table) : State := { State.reset with cfg := { cfgA with table := t } }

/-- The next state, if there is one. -/
def after : StepOut → Option State
  | .next t => some t
  | _ => none

/-- The refusal, if there is one. -/
def refusal : StepOut → Option Refusal
  | .refused r => some r
  | _ => none

/-- What a vector shows: the session fields in the order of 95_test_vectors.md 2.2, and the result. -/
structure Seen where
  status : Status
  payload : List Byte
  cks : Byte
  remaining : Nat
  sel : Option Desc
  result : Option Result
  deriving DecidableEq, Repr

/-- What a vector shows of a step's outcome. -/
def seen (o : StepOut) : Option Seen :=
  (after o).map (fun t => ⟨t.status, t.payload, t.cks, t.remaining, t.sel, t.out.result⟩)

/-! ### Well-formedness: an ill-formed term for each check -/

theorem test_wf_registerOk_unset : (Instr.registerOk 0x05 (.sized 0) false).wf = false := by decide
theorem test_wf_registerSizeNotSet_set : (Instr.registerSizeNotSet 0x05 (.sized 1) false).wf = false := by decide
theorem test_wf_registerIdAliasing_unset : (Instr.registerIdAliasing 0x01 (.sized 0) true).wf = false := by decide
theorem test_wf_registerRefused_unset : (Instr.registerRefused 0x08 (.sized 0) false).wf = false := by decide
theorem test_wf_registerRefused_bounded : (Instr.registerRefused 0x08 .bounded false).wf = false := by decide

/-! ### Decoding: words written out from R50, R58, R61 (the state tells the rows of one byte apart) -/

theorem test_decode_idleSom :
    decode (stA .idle [] 0 0 none).view (.byte 0b01111110) = .instr (.idleSom 0x7E) := by decide
theorem test_decode_idleSync :
    decode (stA .idle [] 0 0 none).view (.byte 0b01111111) = .instr (.idleSync 0x7F) := by decide
theorem test_decode_idHitSized :
    decode (stA .waitId [] 0 0 none).view (.byte 0b00000011) = .instr (.idHitSized 0x03) := by decide
theorem test_decode_idHitBounded :
    decode (stA .waitId [] 0 0 none).view (.byte 0b00000100) = .instr (.idHitBounded 0x04) := by decide
theorem test_decode_idMiss :
    decode (stA .waitId [] 0 0 none).view (.byte 0b01111110) = .instr (.idMiss 0x7E) := by decide
theorem test_decode_dataSizedMore :
    decode (stA .waitData [] 0 2 (some d1)).view (.byte 0b01111111) = .instr (.dataSizedMore 0x7F) := by decide
theorem test_decode_dataSizedLastCk :
    decode (stA .waitData [0xFF] 0xFF 1 (some d1)).view (.byte 0b11111111) = .instr (.dataSizedLastCk 0xFF) := by decide
theorem test_decode_dataSizedLastNock :
    decode (stA .waitData [1, 2] 0 1 (some d3)).view (.byte 0b01111111) = .instr (.dataSizedLastNock 0x7F) := by decide
theorem test_decode_dataBoundedMore :
    decode (stA .waitData [] 0 0 (some d2)).view (.byte 0b01111110) = .instr (.dataBoundedMore 0x7E) := by decide
theorem test_decode_dataBoundedTermCk :
    decode (stA .waitData [] 0 0 (some d4)).view (.byte 0b01111111) = .instr (.dataBoundedTermCk 0x7F) := by decide
theorem test_decode_dataBoundedTermNock :
    decode (stA .waitData [] 0 0 (some d2)).view (.byte 0b01111111) = .instr (.dataBoundedTermNock 0x7F) := by decide
theorem test_decode_cksMatchSized :
    decode (stA .waitCheckSum [0x10, 0x20] 0x30 0 (some d1)).view (.byte 0b00110000) =
      .instr (.cksMatchSized 0x30) := by decide
theorem test_decode_cksMatchBounded :
    decode (stA .waitCheckSum [0x7F] 0x7F 0 (some d4)).view (.byte 0b01111111) = .instr (.cksMatchBounded 0x7F) := by decide
theorem test_decode_cksMismatch :
    decode (stA .waitCheckSum [0x10, 0x20] 0x30 0 (some d1)).view (.byte 0b00110001) =
      .instr (.cksMismatch 0x31) := by decide
theorem test_decode_eomMatch :
    decode (stA .waitEoM [0x7F] 0 0 (some d2)).view (.byte 0b01111111) = .instr (.eomMatch 0x7F) := by decide
theorem test_decode_eomMismatch :
    decode (stA .waitEoM [1, 2, 3] 0 0 (some d3)).view (.byte 0b01111110) = .instr (.eomMismatch 0x7E) := by decide
theorem test_decode_default :
    decode (stA (.other 1) [] 0 0 none).view (.byte 0b01000010) = .instr (.default 0x42) := by decide
theorem test_decode_feed :
    decode (stA .idle [] 0 0 none).view (.cycle { inValid := true, inByte := 0b01000010, regValid := true }) =
      .instr (.feed 0x42) := by decide
theorem test_decode_registerOk :
    decode (setup []).view
      (.cycle { regValid := true, regId := 0b00000001, regSized := true, regLen := 0b10, regCks := true }) =
      .instr (.registerOk 0x01 (.sized 2) true) := by decide
theorem test_decode_registerSizeNotSet :
    decode (setup [d1]).view (.cycle { regValid := true, regId := 0b00000001, regSized := true, regCks := true }) =
      .instr (.registerSizeNotSet 0x01 (.sized 0) true) := by decide
theorem test_decode_registerIdAliasing :
    decode (setup [d1]).view (.cycle { regValid := true, regId := 0b00000001, regSized := false, regLen := 9 }) =
      .instr (.registerIdAliasing 0x01 .bounded false) := by decide
theorem test_decode_registerRefused :
    decode { setup [] with cfg := { cfgA with table := [], lenMax := some 255 } }.view
      (.cycle { regValid := true, regId := 0b00001000, regSized := true, regLen := 256 }) =
      .instr (.registerRefused 0x08 (.sized 256) false) := by decide
theorem test_decode_lookup : decode (setup [d1]).view (.lookup 0b00000001) = .instr (.lookup 0x01) := by decide
theorem test_decode_build :
    decode (setup []).view (.build [⟨0x01, .sized 2, true⟩]) = .instr (.build [⟨0x01, .sized 2, true⟩]) := by decide
theorem test_decode_reset :
    decode (stA .idle [] 0 0 none).view (.cycle { rst := true, inValid := true, regValid := true }) =
      .instr .reset := by decide
theorem test_tableWord : decodeTableWord 8 0x42 = some (.idleSync 0x42) := by decide

/-! ### Single-step vectors (95_test_vectors.md 2.2, W1 to W17) -/

theorem test_W1 : seen (exec (.idleSom 0x7E) (stA .idle [0xAA] 0x12 0 none)) =
    some ⟨.waitId, [], 0, 0, none, some .parsing⟩ := by decide
theorem test_W2 : seen (exec (.idleSync 0x7F) (stA .idle [0xAA] 0x12 0 none)) =
    some ⟨.idle, [0xAA], 0x12, 0, none, some (.error .syncError none)⟩ := by decide
theorem test_W3 : seen (exec (.idHitSized 0x03) (stA .waitId [] 0 0 none)) =
    some ⟨.waitData, [], 0, 3, some d3, some .parsing⟩ := by decide
theorem test_W4 : seen (exec (.idHitBounded 0x04) (stA .waitId [] 0 0 none)) =
    some ⟨.waitData, [], 0, 0, some d4, some .parsing⟩ := by decide
theorem test_W5 : seen (exec (.idMiss 0x00) (stA .waitId [] 0 0 none)) =
    some ⟨.idle, [], 0, 0, none, some (.error .missingId none)⟩ := by decide
theorem test_W6 : seen (exec (.dataSizedMore 0x7F) (stA .waitData [] 0 2 (some d1))) =
    some ⟨.waitData, [0x7F], 0x7F, 1, some d1, some .parsing⟩ := by decide
theorem test_W7 : seen (exec (.dataSizedLastCk 0xFF) (stA .waitData [0xFF] 0xFF 1 (some d1))) =
    some ⟨.waitCheckSum, [0xFF, 0xFF], 0xFE, 0, some d1, some .parsing⟩ := by decide
theorem test_W8 : seen (exec (.dataSizedLastNock 0x7F) (stA .waitData [1, 2] 0 1 (some d3))) =
    some ⟨.waitEoM, [1, 2, 0x7F], 0, 0, some d3, some .parsing⟩ := by decide
theorem test_W9 : seen (exec (.dataBoundedMore 0x7E) (stA .waitData [] 0 0 (some d2))) =
    some ⟨.waitData, [0x7E], 0, 0, some d2, some .parsing⟩ := by decide
theorem test_W10 : seen (exec (.dataBoundedTermCk 0x7F) (stA .waitData [] 0 0 (some d4))) =
    some ⟨.waitCheckSum, [0x7F], 0x7F, 0, some d4, some .parsing⟩ := by decide
theorem test_W11 : seen (exec (.dataBoundedTermNock 0x7F) (stA .waitData [] 0 0 (some d2))) =
    some ⟨.waitEoM, [0x7F], 0, 0, some d2, some .parsing⟩ := by decide
theorem test_W12 : seen (exec (.cksMatchSized 0x30) (stA .waitCheckSum [0x10, 0x20] 0x30 0 (some d1))) =
    some ⟨.idle, [0x10, 0x20], 0x30, 0, none, some (.completed 0x01 [0x10, 0x20])⟩ := by decide
theorem test_W13 : seen (exec (.cksMatchBounded 0x7F) (stA .waitCheckSum [0x7F] 0x7F 0 (some d4))) =
    some ⟨.waitEoM, [0x7F], 0x7F, 0, some d4, some .parsing⟩ := by decide
theorem test_W14 : seen (exec (.cksMismatch 0x7E) (stA .waitCheckSum [0x10, 0x20] 0x30 0 (some d1))) =
    some ⟨.idle, [0x10, 0x20], 0x30, 0, none, some (.error .checksum (some 0x7E))⟩ := by decide
theorem test_W15 : seen (exec (.eomMatch 0x7F) (stA .waitEoM [0x7F] 0x7F 0 (some d4))) =
    some ⟨.idle, [0x7F], 0x7F, 0, none, some (.completed 0x04 [0x7F])⟩ := by decide
theorem test_W16 : seen (exec (.eomMismatch 0x7E) (stA .waitEoM [1, 2, 3] 0 0 (some d3))) =
    some ⟨.idle, [1, 2, 3], 0, 0, none, some (.error .missingEom (some 0x7E))⟩ := by decide
theorem test_W17 : seen (exec (.default 0x42) (stA (statusOfCode 6) [5] 9 1 (some d2))) =
    some ⟨.idle, [5], 9, 1, none, some (.error .formatError (some 0x42))⟩ := by decide
/-- V14: a second start marker is looked up as an identifier. -/
theorem test_feed_second_start : seen (exec (.feed 0x7E) (stA .waitId [] 0 0 none)) =
    some ⟨.idle, [], 0, 0, none, some (.error .missingId none)⟩ := by decide
/-- C1: the terminator of a `Bounded` message without checksum does not complete it. -/
theorem test_feed_terminator : seen (exec (.feed 0x7F) (stA .waitData [5, 6] 0 0 (some d2))) =
    some ⟨.waitEoM, [5, 6, 0x7F], 0, 0, some d2, some .parsing⟩ := by decide

/-! ### Table operations (95_test_vectors.md 2.5, 2.7, 2.8) -/

theorem test_registerOk_sorted :
    (after (exec (.registerOk 0x01 (.sized 2) true) (setup [d2]))).map (fun t => (t.cfg.table, t.out.reg)) =
      some ([d1, d2], some (.ok d1)) := by decide
theorem test_registerIdAliasing_identical :
    (after (exec (.registerIdAliasing 0x01 (.sized 2) true) (setup [d1, d2]))).map (fun t => (t.cfg.table, t.out.reg)) =
      some ([d1, d2], some (.err .idAliasing)) := by decide
theorem test_registerSizeNotSet_duplicate :
    (after (exec (.registerSizeNotSet 0x01 (.sized 0) true) (setup [d1]))).map (fun t => (t.cfg.table, t.out.reg)) =
      some ([d1], some (.err .sizeNotSet)) := by decide
theorem test_registerRefused_256 :
    refusal (exec (.registerRefused 0x08 (.sized 256) false)
      { setup [] with cfg := { cfgA with table := [], lenMax := some 255 } }) = some .lengthTooLong := by decide
theorem test_lookup_unknown :
    (after (exec (.lookup 0x03) (setup [d1, d2]))).map (fun t => t.out.found) = some (some none) := by decide
theorem test_build_fails_at_second :
    (after (exec (.build [⟨1, .sized 2, true⟩, ⟨5, .sized 0, false⟩, ⟨2, .bounded, false⟩]) (setup []))).map
      (fun t => (t.cfg.table, t.out.built)) = some ([], some (.err .sizeNotSet)) := by decide
theorem test_build_two :
    (after (exec (.build [⟨2, .bounded, false⟩, ⟨1, .sized 2, true⟩]) (setup []))).map (fun t => t.cfg.table) =
      some [d1, d2] := by decide
/-- R64: a build does not remove the descriptor that was registered before it. -/
theorem test_build_keeps_descriptors :
    (after (exec (.build [⟨1, .bounded, false⟩, ⟨2, .bounded, false⟩]) (setup [d1]))).map
      (fun t => (t.cfg.table, t.out.built)) = some ([d1], some (.ok [⟨1, .bounded, false⟩, d2])) := by decide
theorem test_reset_drops_message :
    (after (exec .reset (stA .waitData [5, 6] 0 0 (some d2)))).map (fun t => (t.status, t.payload, t.cfg.table, t.out)) =
      some (.idle, [], [], {}) := by decide
/-- X1: the fifth byte does not fit a buffer of four. -/
theorem test_overflow :
    refusal (exec (.feed 0x05) { stA .waitData [1, 2, 3, 4] 0 0 (some d2) with
      cfg := { cfgA with payloadMax := some 4 } }) = some .payloadOverflow := by decide
/-- X5: a table with a `Sized(0)` entry. -/
theorem test_invalid_table :
    refusal (exec (.feed 0x7E) (setup [⟨1, .sized 0, false⟩])) = some .invalidConfig := by decide

/-! ### Arithmetic (95_test_vectors.md 2.3) and the step -/

theorem test_checksum_wraps : checksum [0xF0, 0x20, 0x7F] = 0x8F := by decide
theorem test_checksumStep_wraps : checksumStep 0x80 0x80 = 0x00 := by decide
theorem test_step_first_byte :
    ((after (step (State.reset.withFetchWord 8 0x00))).map (fun t => (t.status, t.started, t.input))) =
      some (.waitId, true, []) := by decide
theorem test_step_one_observer :
    ((after (step { stA .idle [] 0 0 none with input := [.byte 0x00], observers := 1 })).map (fun t => t.out.deliveries)) =
      some [(0, .error .syncError none)] := by decide
theorem test_step_read_port :
    ((after (step { stA .idle [7, 8] 0 0 none with
      input := [.cycle { inValid := true, inByte := 0x7E, plRaddr := some 1 }] })).map
      (fun t => (t.payload, t.out.rdata))) = some ([], some 8) := by decide

/-! ### Witnesses: states and operands that meet the obligations' hypotheses -/

/-- An `Idle` state with stale fields. -/
def sIdle : State := stA .idle [0xAA] 0x12 0 none
def sId : State := stA .waitId [] 0 0 none
def sMore : State := stA .waitData [] 0 2 (some d1)
def sLastCk : State := stA .waitData [0x10] 0x10 1 (some d1)
def sLastNock : State := stA .waitData [1, 2] 0 1 (some d3)
def sBounded : State := stA .waitData [5] 0 0 (some d2)
def sBoundedCk : State := stA .waitData [5] 5 0 (some d4)
def sCksSized : State := stA .waitCheckSum [0x10, 0x20] 0x30 0 (some d1)
def sCksBounded : State := stA .waitCheckSum [0x7F] 0x7F 0 (some d4)
def sEom : State := stA .waitEoM [1, 2, 3] 0 0 (some d3)
def sEomBounded : State := stA .waitEoM [5, 0x7F] 0 0 (some d2)
def sBad : State := stA (.other 2) [] 0 0 none
/-- A finite buffer with room for exactly one more byte, and with none. -/
def sRoomOne : State := { sBounded with cfg := { cfgA with payloadMax := some 2 } }
def sFull : State := { sBounded with cfg := { cfgA with payloadMax := some 1 } }

theorem witness_StartMarkerOpensMessage :
    configValid sIdle.cfg = true ∧ sIdle.status = .idle ∧ (0x7E : Byte) = sIdle.cfg.start := by decide
theorem witness_StrayByteReportsSyncError :
    configValid sIdle.cfg = true ∧ sIdle.status = .idle ∧ (0x7F : Byte) ≠ sIdle.cfg.start := by decide
theorem witness_SizedIdentifierLoadsCountdown :
    configValid sId.cfg = true ∧ sId.status = .waitId ∧ tableRead sId.cfg.table 0x01 = some d1 ∧
      d1.framing = .sized 2 := by decide
theorem witness_BoundedIdentifierClearsCountdown :
    configValid sId.cfg = true ∧ sId.status = .waitId ∧ tableRead sId.cfg.table 0x02 = some d2 ∧
      d2.framing = .bounded := by decide
theorem witness_UnknownIdentifierReturnsToIdle :
    configValid sId.cfg = true ∧ sId.status = .waitId ∧ tableRead sId.cfg.table 0x7E = none := by decide

/-- No bound on the buffer leaves room for every byte. -/
theorem room_of_unbounded {s : State} (h : s.cfg.payloadMax = none) :
    ∀ m, s.cfg.payloadMax = some m → s.payload.length < m := by simp [h]

theorem witness_SizedByteCountsDown :
    (configValid sMore.cfg = true ∧ sMore.status = .waitData ∧ sMore.sel = some d1 ∧ d1.framing = .sized 2 ∧
      2 ≤ sMore.remaining) ∧ (∀ m, sMore.cfg.payloadMax = some m → sMore.payload.length < m) :=
  ⟨by decide, room_of_unbounded rfl⟩
theorem witness_LastSizedByteAwaitsChecksum :
    (configValid sLastCk.cfg = true ∧ sLastCk.status = .waitData ∧ sLastCk.sel = some d1 ∧ d1.framing = .sized 2 ∧
      d1.cks = true ∧ sLastCk.remaining = 1) ∧ (∀ m, sLastCk.cfg.payloadMax = some m → sLastCk.payload.length < m) :=
  ⟨by decide, room_of_unbounded rfl⟩
theorem witness_LastSizedByteAwaitsEndMarker :
    (configValid sLastNock.cfg = true ∧ sLastNock.status = .waitData ∧ sLastNock.sel = some d3 ∧ d3.framing = .sized 3 ∧
      d3.cks = false ∧ sLastNock.remaining = 1) ∧
      (∀ m, sLastNock.cfg.payloadMax = some m → sLastNock.payload.length < m) :=
  ⟨by decide, room_of_unbounded rfl⟩
/-- At the boundary of a finite buffer: room for exactly one byte. -/
theorem witness_BoundedByteIsAppended :
    (configValid sRoomOne.cfg = true ∧ sRoomOne.status = .waitData ∧ sRoomOne.sel = some d2 ∧ d2.framing = .bounded ∧
      (0x7E : Byte) ≠ sRoomOne.cfg.stop) ∧ (∀ m, sRoomOne.cfg.payloadMax = some m → sRoomOne.payload.length < m) :=
  ⟨by decide, by rintro m h; cases h; decide⟩
theorem witness_TerminatorAwaitsChecksum :
    (configValid sBoundedCk.cfg = true ∧ sBoundedCk.status = .waitData ∧ sBoundedCk.sel = some d4 ∧
      d4.framing = .bounded ∧ d4.cks = true ∧ (0x7F : Byte) = sBoundedCk.cfg.stop) ∧
      (∀ m, sBoundedCk.cfg.payloadMax = some m → sBoundedCk.payload.length < m) :=
  ⟨by decide, room_of_unbounded rfl⟩
theorem witness_TerminatorAwaitsEndMarker :
    (configValid sBounded.cfg = true ∧ sBounded.status = .waitData ∧ sBounded.sel = some d2 ∧ d2.framing = .bounded ∧
      d2.cks = false ∧ (0x7F : Byte) = sBounded.cfg.stop) ∧
      (∀ m, sBounded.cfg.payloadMax = some m → sBounded.payload.length < m) :=
  ⟨by decide, room_of_unbounded rfl⟩
theorem witness_SizedChecksumMatchCompletes :
    configValid sCksSized.cfg = true ∧ sCksSized.status = .waitCheckSum ∧ sCksSized.sel = some d1 ∧
      d1.framing = .sized 2 ∧ (0x30 : Byte) = sCksSized.cks := by decide
theorem witness_BoundedChecksumMatchAwaitsEndMarker :
    configValid sCksBounded.cfg = true ∧ sCksBounded.status = .waitCheckSum ∧ sCksBounded.sel = some d4 ∧
      d4.framing = .bounded ∧ (0x7F : Byte) = sCksBounded.cks := by decide
theorem witness_ChecksumMismatchReportsFedByte :
    configValid sCksSized.cfg = true ∧ sCksSized.status = .waitCheckSum ∧ (0x31 : Byte) ≠ sCksSized.cks := by decide
theorem witness_EndMarkerCompletes :
    configValid sEom.cfg = true ∧ sEom.status = .waitEoM ∧ sEom.sel = some d3 ∧ (0x7F : Byte) = sEom.cfg.stop := by decide
theorem witness_WrongEndMarkerReportsFedByte :
    configValid sEom.cfg = true ∧ sEom.status = .waitEoM ∧ (0x7E : Byte) ≠ sEom.cfg.stop := by decide
theorem witness_IllegalStatusRecovers : configValid sBad.cfg = true ∧ sBad.status = .other 2 := by decide

theorem witness_FeedRunsTheSelectedTransition : selectRow sMore.view 0x10 = some .dataSizedMore := by decide
theorem witness_FeedCompletes_data :
    configValid sMore.cfg = true ∧ viewCoherent sMore.view ∧ (sMore.status = .waitEoM → sMore.sel.isSome = true) ∧
      (sMore.status = .waitData → ∀ m, sMore.cfg.payloadMax = some m → sMore.payload.length < m) :=
  ⟨by decide, ⟨fun _ => ⟨d1, rfl, fun _ _ => by decide⟩, by decide⟩, by decide, fun _ => room_of_unbounded rfl⟩
theorem witness_FeedCompletes_checksum :
    configValid sCksSized.cfg = true ∧ viewCoherent sCksSized.view ∧
      (sCksSized.status = .waitEoM → sCksSized.sel.isSome = true) ∧
      (sCksSized.status = .waitData → ∀ m, sCksSized.cfg.payloadMax = some m → sCksSized.payload.length < m) :=
  ⟨by decide, ⟨(fun h => by cases h), by decide⟩, by decide, fun _ => room_of_unbounded rfl⟩

/-- Setup under capacities of 255: the longest length held, and the shortest refused. -/
def sSetup : State := { setup [d1] with cfg := { cfgA with table := [d1], lenMax := some 255, payloadMax := some 300 } }

theorem witness_RegisterOkInsertsDescriptor :
    sSetup.started = false ∧
      (∀ n, Framing.sized 255 = .sized n →
        1 ≤ n ∧ (∀ m, sSetup.cfg.lenMax = some m → n ≤ m) ∧ (∀ m, sSetup.cfg.payloadMax = some m → n ≤ m)) ∧
      tableRead sSetup.cfg.table 0x08 = none ∧ configValid sSetup.cfg = true := by
  refine ⟨by decide, fun n h => ?_, by decide, by decide⟩
  cases h
  exact ⟨by decide, fun m h => by cases h; decide, fun m h => by cases h; decide⟩
theorem witness_RegisterUnsetLengthFails : sSetup.started = false := by decide
theorem witness_RegisterDuplicateFails :
    sSetup.started = false ∧
      (∀ n, Framing.bounded = .sized n →
        1 ≤ n ∧ (∀ m, sSetup.cfg.lenMax = some m → n ≤ m) ∧ (∀ m, sSetup.cfg.payloadMax = some m → n ≤ m)) ∧
      tableRead sSetup.cfg.table 0x01 = some d1 :=
  ⟨by decide, (fun n h => by cases h), by decide⟩
theorem witness_RegisterTooLongIsRefused :
    sSetup.started = false ∧ (256 : Nat) ≠ 0 ∧ (sSetup.cfg.lenMax = some 255 ∨ sSetup.cfg.payloadMax = some 255) ∧
      255 < 256 := by decide
theorem witness_LookupAnswersTheTable :
    tableRead sSetup.cfg.table 0x01 = some d1 ∧ tableRead sSetup.cfg.table 0x02 = none := by decide
/-- The requests that a construction reaches can be held. -/
def reachedHeld (cfg : Config) (rs : List Req) : Prop :=
  ∀ (pre post : List Req) (q : Req) (u : Table), rs = pre ++ q :: post →
    buildFrom cfg [] pre = .done (.ok u) → lengthHeld cfg q.framing = true
theorem reachedHeld_of_all {cfg : Config} {rs : List Req} (h : ∀ r ∈ rs, lengthHeld cfg r.framing = true) :
    reachedHeld cfg rs := fun pre post q _ he _ => h q (by simp [he])
/-- A failure that stands before a length that cannot be held. -/
theorem reachedHeld_after_failure :
    reachedHeld sSetup.cfg [⟨1, .sized 0, true⟩, ⟨8, .sized 256, false⟩] := by
  intro pre post q u he hb
  rcases pre with _ | ⟨r, pre⟩
  · cases he; decide
  · obtain ⟨rfl, -⟩ := List.cons.inj he
    simp [buildFrom, registerCase, Framing.unset] at hb
/-- Both outcomes of a build that completes, on an instance with a descriptor and on one without, and the failure that stands
before a length that cannot be held. -/
theorem witness_BuildCompletes :
    sSetup.started = false ∧ sSetup.cfg.table = [d1] ∧ (setup []).started = false ∧ (setup []).cfg.table = [] ∧
      reachedHeld sSetup.cfg [⟨2, .bounded, false⟩, ⟨1, .sized 255, true⟩] ∧
      reachedHeld (setup []).cfg [⟨2, .bounded, false⟩] ∧
      reachedHeld sSetup.cfg [⟨1, .sized 2, true⟩, ⟨1, .sized 2, true⟩] ∧
      reachedHeld sSetup.cfg [⟨1, .sized 0, true⟩, ⟨8, .sized 256, false⟩] :=
  ⟨rfl, rfl, rfl, rfl, reachedHeld_of_all (by decide), reachedHeld_of_all (by decide), reachedHeld_of_all (by decide),
    reachedHeld_after_failure⟩

theorem witness_StepRunsDecodedInstruction :
    { sIdle with input := [.byte 0x7E, .byte 0x01] }.input = .byte 0x7E :: [.byte 0x01] ∧
      decode { sIdle with input := [.byte 0x7E, .byte 0x01] }.view (.byte 0x7E) = .instr (.idleSom 0x7E) ∧
      sIdle.input = [] := by decide
theorem witness_WrittenWordsDecode :
    sIdle.view.status = .idle ∧ sIdle.view.cfg.start = 0x7E ∧ sEom.view.status = .waitEoM ∧
      sEom.view.cfg.stop = 0x7F ∧ (setup []).view.started = false ∧ (setup []).view.cfg.table = [] ∧
      (setup []).view.cfg.lenMax = none ∧ (setup []).view.cfg.payloadMax = none := by decide
theorem witness_ExactlyOneRowApplies :
    rowHolds sMore.view 0x10 .dataSizedMore ∧ viewCoherent sMore.view :=
  ⟨⟨rfl, by decide, d1, 2, rfl, rfl⟩, fun _ => ⟨d1, rfl, fun _ _ => by decide⟩, by decide⟩
theorem witness_DecodeOfEncodeIsTheInstruction :
    ((Instr.idleSom 0x7E).wf = true ∧ selectedIn sIdle.view (.idleSom 0x7E)) ∧
      ((Instr.registerOk 0x08 .bounded true).wf = true ∧ selectedIn sSetup.view (.registerOk 0x08 .bounded true)) :=
  ⟨⟨rfl, rfl, rfl⟩, rfl, rfl, by decide⟩

/-- A state within the invariant, in the middle of a `Sized` message. -/
theorem inv_sLastCk : Inv sLastCk := by
  constructor <;> simp [sLastCk, stA, State.reset, cfgA, d1, d2, d3, d4, configValid, tableSorted, Framing.unset,
    lengthHeld, withinBound, tableRead, checksum]
/-- A state within the invariant, at the checksum byte of a `Sized` message. -/
theorem inv_sCksSized : Inv sCksSized := by
  constructor <;> simp [sCksSized, stA, State.reset, cfgA, d1, d2, d3, d4, configValid, tableSorted, Framing.unset,
    lengthHeld, withinBound, tableRead, checksum]
/-- A state within the invariant, at the end marker of a `Bounded` message. -/
theorem inv_sEomBounded : Inv sEomBounded := by
  constructor <;> simp [sEomBounded, stA, State.reset, cfgA, d1, d2, d3, d4, configValid, tableSorted, Framing.unset,
    lengthHeld, withinBound, tableRead]
  exact ⟨[5], rfl, by decide⟩

/-- A step from a state of the invariant. -/
theorem witness_EveryStepKeepsTheInvariant :
    Inv sLastCk ∧ ∃ t, step sLastCk = .next t := ⟨inv_sLastCk, _, rfl⟩
/-- Feeds that answer a completion, each error kind, and `Parsing`: the hypotheses of the statements about one feed
(`SyncErrorExactlyOnStrayBytes` to `CompletedPayloadFitsDescriptor`, `FeedKeepsConfiguration`, the channel and the pins). -/
theorem witness_feed_parsing : ∃ t, exec (.feed 0x20) sLastCk = .next t ∧ t.out.result = some .parsing := ⟨_, rfl, rfl⟩
theorem witness_feed_completed :
    Inv sCksSized ∧ ∃ t, exec (.feed 0x30) sCksSized = .next t ∧
      t.out.result = some (.completed 0x01 [0x10, 0x20]) := ⟨inv_sCksSized, _, rfl, rfl⟩
theorem witness_feed_completed_bounded :
    Inv sEomBounded ∧ ∃ t, exec (.feed 0x7F) sEomBounded = .next t ∧
      t.out.result = some (.completed 0x02 [5, 0x7F]) := ⟨inv_sEomBounded, _, rfl, rfl⟩
theorem witness_feed_syncError :
    ∃ t u, exec (.feed 0x00) sIdle = .next t ∧ t.out.result = some (.error .syncError none) ∧
      (0x01 : Byte) ≠ t.cfg.start ∧ exec (.feed 0x01) t = .next u ∧
      u.out.result = some (.error .syncError none) := ⟨_, _, rfl, rfl, by decide, rfl, rfl⟩
theorem witness_feed_missingId :
    ∃ t, exec (.feed 0x09) sId = .next t ∧ t.out.result = some (.error .missingId none) := ⟨_, rfl, rfl⟩
theorem witness_feed_checksum :
    Inv sCksSized ∧ ∃ t, exec (.feed 0x31) sCksSized = .next t ∧
      t.out.result = some (.error .checksum (some 0x31)) ∧ t.out.result ≠ some .parsing :=
  ⟨inv_sCksSized, _, rfl, rfl, by decide⟩
theorem witness_feed_missingEom :
    Inv sEomBounded ∧ ∃ t, exec (.feed 0x00) sEomBounded = .next t ∧
      t.out.result = some (.error .missingEom (some 0x00)) := ⟨inv_sEomBounded, _, rfl, rfl⟩
theorem witness_feed_formatError :
    ∃ t, exec (.feed 0x42) sBad = .next t ∧ t.out.result = some (.error .formatError (some 0x42)) := ⟨_, rfl, rfl⟩

theorem witness_FrameSizedChecksummedCompletes :
    configValid sIdle.cfg = true ∧ sIdle.status = .idle ∧ tableRead sIdle.cfg.table 1 = some ⟨1, .sized 2, true⟩ ∧
      ([0x10, 0x20] : List Byte).length = 2 ∧ roomFor sIdle 2 := ⟨by decide, rfl, by decide, rfl, rfl⟩
theorem witness_FrameSizedPlainCompletes :
    configValid sIdle.cfg = true ∧ sIdle.status = .idle ∧ tableRead sIdle.cfg.table 3 = some ⟨3, .sized 3, false⟩ ∧
      ([0x7E, 0x7F, 0x7E] : List Byte).length = 3 ∧ roomFor sIdle 3 := ⟨by decide, rfl, by decide, rfl, rfl⟩
theorem witness_FrameBoundedPlainCompletes :
    configValid sIdle.cfg = true ∧ sIdle.status = .idle ∧ tableRead sIdle.cfg.table 2 = some ⟨2, .bounded, false⟩ ∧
      sIdle.cfg.stop ∉ ([] : List Byte) ∧ roomFor sIdle 1 := ⟨by decide, rfl, by decide, by decide, rfl⟩
theorem witness_FrameBoundedChecksummedCompletes :
    configValid sIdle.cfg = true ∧ sIdle.status = .idle ∧ tableRead sIdle.cfg.table 4 = some ⟨4, .bounded, true⟩ ∧
      sIdle.cfg.stop ∉ ([0xF0, 0x20] : List Byte) ∧ roomFor sIdle 3 := ⟨by decide, rfl, by decide, by decide, rfl⟩
theorem witness_StaleFieldsAreUnobservable : sIdle.status = .idle := rfl
theorem witness_StartMarkerIsDataInsideMessage :
    sMore.status ≠ .idle ∧ ∃ t, exec (.feed 0x7E) sMore = .next t := ⟨by decide, _, rfl⟩
/-- One witness for each clause: an appended byte, a clear, and a byte that leaves the buffer alone. -/
theorem witness_FeedWritesPayloadOnlyByAppendOrClear :
    (sMore.status = .waitData ∧ ∃ t, exec (.feed 0x7E) sMore = .next t) ∧
      (sIdle.status = .idle ∧ (0x7E : Byte) = sIdle.cfg.start ∧ ∃ t, exec (.feed 0x7E) sIdle = .next t) ∧
      (sEom.status ≠ .waitData ∧ ¬(sEom.status = .idle ∧ (0x7F : Byte) = sEom.cfg.start) ∧
        ∃ t, exec (.feed 0x7F) sEom = .next t) :=
  ⟨⟨rfl, _, rfl⟩, ⟨rfl, rfl, _, rfl⟩, by decide, by decide, _, rfl⟩
theorem witness_UnterminatedMessageKeepsGrowing :
    configValid sBounded.cfg = true ∧ sBounded.status = .waitData ∧ sBounded.sel = some d2 ∧ d2.framing = .bounded ∧
      sBounded.cfg.stop ∉ ([0x7E, 0x00] : List Byte) ∧ roomFor sBounded (sBounded.payload.length + 2) :=
  ⟨by decide, rfl, rfl, rfl, by decide, rfl⟩
theorem witness_StrayBytesKeepThePayloadWindow :
    configValid sIdle.cfg = true ∧ sIdle.status = .idle ∧ sIdle.cfg.start ∉ ([0x01, 0x7F] : List Byte) := by decide
theorem witness_EveryResultFiresItsEvent : ∃ t outs, feedAll sIdle [0x00, 0x7E] = some (t, outs) := ⟨_, _, rfl⟩
/-- Two observers and an event. -/
theorem witness_EveryObserverSeesEachEventOnce :
    ∃ t e, exec (.feed 0x00) { sIdle with observers := 2 } = .next t ∧ t.out.event = some e := ⟨_, _, rfl, rfl⟩

/-- A step that stays in parsing, and a clock edge with `rst` and `in_valid` that leaves it. -/
theorem witness_TableIsClosedDuringParsing :
    sIdle.started = true ∧ (∃ t, step { sIdle with input := [.byte 0x00] } = .next t) ∧
      (∃ t, step { sIdle with input := [.cycle { rst := true, inValid := true }] } = .next t) ∧
      decode sIdle.view (.cycle { rst := true, inValid := true }) = .instr .reset :=
  ⟨rfl, ⟨_, rfl⟩, ⟨_, rfl⟩, by decide⟩
theorem witness_LaunchesWithoutMeaning_config : configValid (setup [⟨1, .sized 0, false⟩]).cfg = false := by decide
/-- At the boundary: the buffer holds exactly its capacity. -/
theorem witness_LaunchesWithoutMeaning_overflow :
    configValid sFull.cfg = true ∧ viewCoherent sFull.view ∧ sFull.status = .waitData ∧
      sFull.cfg.payloadMax = some 1 ∧ 1 ≤ sFull.payload.length :=
  ⟨by decide, ⟨fun _ => ⟨d2, rfl, fun n h => by cases h⟩, by decide⟩, rfl, rfl, by decide⟩
theorem witness_LaunchesWithoutMeaning_corrupt :
    (configValid cfgA = true ∧ selectRow (stA .waitData [] 0 0 (some d1)).view 0x10 = none) ∧
      (stA .waitEoM [] 0 0 none).status = .waitEoM ∧ (stA .waitEoM [] 0 0 none).sel = none := by decide
theorem witness_LaunchesWithoutMeaning_unselected :
    configValid sIdle.cfg = true ∧ ¬rowHolds sIdle.view 0x00 .idleSom ∧ sSetup.started = false ∧
      registerCase sSetup.cfg sSetup.cfg.table ⟨1, .bounded, true⟩ ≠ .ok :=
  ⟨by decide, fun h => absurd h.2 (by decide), rfl, by decide⟩
theorem witness_LaunchesWithoutMeaning_build :
    sSetup.started = false ∧ buildFrom sSetup.cfg [] [⟨2, .bounded, false⟩] = .done (.ok [d2]) ∧
      (⟨8, .sized 256, false⟩ : Req).framing ≠ .sized 0 ∧ lengthHeld sSetup.cfg (.sized 256) = false := by decide
/-- Each act as the next input of a state in setup and of one in parsing; the same markers, and one that differs. -/
theorem witness_SetupActsAndTheirLimits :
    (({ sSetup with input := [.markers 1 2] } : State).input = [.markers 1 2] ∧ sSetup.started = false) ∧
      (({ sIdle with input := [.markers 0x7E 0x7F] } : State).input = [.markers 0x7E 0x7F] ∧ sIdle.started = true ∧
        (0x7E : Byte) = sIdle.cfg.start ∧ (0x7F : Byte) = sIdle.cfg.stop) ∧
      (({ sIdle with input := [.markers 0x7E 0x00] } : State).input = [.markers 0x7E 0x00] ∧
        (0x00 : Byte) ≠ sIdle.cfg.stop) ∧
      ({ sSetup with input := [.subscribe] } : State).input = [.subscribe] ∧
      ({ sIdle with input := [.subscribe] } : State).input = [.subscribe] ∧
      ({ sIdle with input := [.overlap [1, 2]] } : State).input = [.overlap [1, 2]] := by decide
/-- One clock edge for each clause; both ports at once, in setup and after it. -/
theorem witness_ClockEdgePriorities :
    ({ rst := true, inValid := true } : Pins).rst = true ∧
      (sSetup.started = false ∧ ({ regValid := true, inValid := true } : Pins).rst = false) ∧
      (sIdle.started = true ∧ ({ regValid := true, inValid := true } : Pins).plRaddr = none) := by decide
/-- Refused edges that present a read address: both ports in setup, and a byte that does not fit. -/
theorem witness_ClockEdgePriorities_refused_read :
    sSetup.started = false ∧ ({ inValid := true, regValid := true, plRaddr := some 0 } : Pins).rst = false ∧
      runDecoded (decode sFull.view (.cycle { inValid := true, inByte := 5, plRaddr := some 0 })) sFull =
        .refused .payloadOverflow := ⟨rfl, rfl, rfl⟩
/-- Reads at the last index of the payload and just beyond it. -/
theorem witness_PayloadPortShowsThePayload :
    ∃ t, runDecoded (decode sIdle.view (.cycle { plRaddr := some 0 })) { sIdle with input := [] } = .next t ∧
      payloadRead sIdle 0 = some 0xAA ∧ payloadRead sIdle 1 = none := ⟨_, rfl, by decide, by decide⟩

end Sys2Proof.Tests
end

/-! SUPPORT. The session state under a feed and a step (10_state.md). First what one row does, once for all seventeen rows
(`execRow_eq_transition`), and what a feed that answers can have done (`FeedEffect`); then the invariant of R20 along every
step; then the statements. -/

namespace Sys2Proof.Machine

/-! ### The shared operations where they stop -/

theorem transition_of_valid {c : Bool} {s : State} {o : StepOut} (hv : configValid s.cfg = true) :
    transition c s o = if c then o else .refused .notSelected := by
  simp [transition, hv]

theorem transition_of_invalid {c : Bool} {s : State} {o : StepOut} (hv : configValid s.cfg = false) :
    transition c s o = .refused .invalidConfig := by
  simp [transition, hv]

/-! ### One row: its guard and its body -/

/-- What a `WaitData` row does under its guard (R77, R34); `next` is what the row adds to the common part. -/
def dataBody (b : Byte) (s : State) (next : State → State) : StepOut :=
  if payloadFits s then .next (finishFeed .parsing (next (accumulate b s))) else .refused .payloadOverflow

/-- What a row of the byte decode does once its guard holds. -/
def rowBody (b : Byte) (s : State) : Row → StepOut
  | .idleSom => .next (finishFeed .parsing { payloadClear s with cks := 0, remaining := 0, status := .waitId })
  | .idleSync => .next (finishFeed (.error .syncError none) s)
  | .idHitSized | .idHitBounded =>
    match tableRead s.cfg.table b with
    | none => .refused .notSelected
    | some d => .next (finishFeed .parsing (selectDescriptor d s))
  | .idMiss => raiseError .missingId none s
  | .dataSizedMore => dataBody b s (fun t => { t with remaining := countdown t.remaining })
  | .dataSizedLastCk => dataBody b s (fun t => { t with remaining := countdown t.remaining, status := .waitCheckSum })
  | .dataSizedLastNock => dataBody b s (fun t => { t with remaining := countdown t.remaining, status := .waitEoM })
  | .dataBoundedMore => dataBody b s (fun t => t)
  | .dataBoundedTermCk => dataBody b s (fun t => { t with status := .waitCheckSum })
  | .dataBoundedTermNock => dataBody b s (fun t => { t with status := .waitEoM })
  | .cksMatchSized => completeMessage s
  | .cksMatchBounded => .next (finishFeed .parsing { s with status := .waitEoM })
  | .cksMismatch => raiseError .checksum (some b) s
  | .eomMatch => completeMessage s
  | .eomMismatch => raiseError .missingEom (some b) s
  | .default => raiseError .formatError (some b) s

theorem isSized_iff {f : Framing} : isSized f = true ↔ ∃ n, f = .sized n := by
  cases f <;> simp [isSized]

theorem isSized_eq_false_iff {f : Framing} : isSized f = false ↔ f = .bounded := by
  cases f <;> simp [isSized]

theorem selSatisfies_iff {p : Desc → Bool} {s : State} :
    selSatisfies p s = true ↔ ∃ d, s.sel = some d ∧ p d = true := by
  unfold selSatisfies
  cases s.sel <;> simp

theorem selSized_iff {s : State} : selSized s = true ↔ ∃ d n, s.sel = some d ∧ d.framing = .sized n := by
  simp [selSized, selSatisfies_iff, isSized_iff]

theorem selBounded_iff {s : State} : selBounded s = true ↔ ∃ d, s.sel = some d ∧ d.framing = .bounded := by
  simp [selBounded, selSatisfies_iff, isSized_eq_false_iff]

/-- Where a descriptor is selected, `sel.cks` is that descriptor's. -/
theorem selChecks_of_sel {s : State} {d : Desc} (h : s.sel = some d) : selChecks s = d.cks := by
  simp [selChecks, selSatisfies, h]

theorem selSized_and_selChecks_iff {s : State} {w : Bool} :
    selSized s = true ∧ selChecks s = w ↔ ∃ d n, s.sel = some d ∧ d.framing = .sized n ∧ d.cks = w := by
  rw [selSized_iff]
  constructor
  · rintro ⟨⟨d, n, hsel, hf⟩, hw⟩
    exact ⟨d, n, hsel, hf, selChecks_of_sel hsel ▸ hw⟩
  · rintro ⟨d, n, hsel, hf, hw⟩
    exact ⟨⟨d, n, hsel, hf⟩, (selChecks_of_sel hsel).trans hw⟩

theorem selBounded_and_selChecks_iff {s : State} {w : Bool} :
    selBounded s = true ∧ selChecks s = w ↔ ∃ d, s.sel = some d ∧ d.framing = .bounded ∧ d.cks = w := by
  rw [selBounded_iff]
  constructor
  · rintro ⟨⟨d, hsel, hf⟩, hw⟩
    exact ⟨d, hsel, hf, selChecks_of_sel hsel ▸ hw⟩
  · rintro ⟨d, hsel, hf, hw⟩
    exact ⟨⟨d, hsel, hf⟩, (selChecks_of_sel hsel).trans hw⟩

theorem outsideStates_iff {a : Status} : outsideStates a = true ↔ ∃ k, a = .other k := by
  cases a <;> simp [outsideStates]

/-- The rows that find the identifier are transitions guarded by the looked-up framing (R74, R75). -/
theorem identify_eq_transition (want : Framing → Bool) (b : Byte) (s : State) :
    identify want b s =
      transition (s.status == .waitId && (tableRead s.cfg.table b).any (fun d => want d.framing)) s
        (rowBody b s .idHitSized) := by
  unfold identify rowBody
  cases tableRead s.cfg.table b <;> simp [transition]

/-- Every row is a transition, guarded by the row's predicate of R50. -/
theorem execRow_eq_transition (r : Row) (b : Byte) (s : State) :
    ∃ c, (c = true ↔ rowHolds s.view b r) ∧ execRow r b s = transition c s (rowBody b s r) := by
  cases r with
  | idleSom => exact ⟨_, by simp [rowHolds, isStart], rfl⟩
  | idleSync => exact ⟨_, by simp [rowHolds, isStart], rfl⟩
  | idHitSized =>
    exact ⟨_, by simp [rowHolds, Option.any_eq_true, isSized_iff], identify_eq_transition isSized b s⟩
  | idHitBounded =>
    exact ⟨_, by simp [rowHolds, Option.any_eq_true, isSized_eq_false_iff],
      identify_eq_transition (fun f => !isSized f) b s⟩
  | idMiss => exact ⟨_, by simp [rowHolds], rfl⟩
  | dataSizedMore =>
    exact ⟨_, by simp only [rowHolds, view_sel, ← selSized_iff]; simp [moreExpected_iff, and_comm], rfl⟩
  | dataSizedLastCk =>
    exact ⟨_, by simp only [rowHolds, view_sel, ← selSized_and_selChecks_iff]; simp [lastExpected_iff]; tauto, rfl⟩
  | dataSizedLastNock =>
    exact ⟨_, by simp only [rowHolds, view_sel, ← selSized_and_selChecks_iff]; simp [lastExpected_iff]; tauto, rfl⟩
  | dataBoundedMore =>
    exact ⟨_, by simp only [rowHolds, view_sel, ← selBounded_iff]; simp [isStop, and_comm], rfl⟩
  | dataBoundedTermCk =>
    exact ⟨_, by simp only [rowHolds, view_sel, ← selBounded_and_selChecks_iff]; simp [isStop]; tauto, rfl⟩
  | dataBoundedTermNock =>
    exact ⟨_, by simp only [rowHolds, view_sel, ← selBounded_and_selChecks_iff]; simp [isStop]; tauto, rfl⟩
  | cksMatchSized => exact ⟨_, by simp [rowHolds, selSized_iff, isChecksum, and_assoc], rfl⟩
  | cksMatchBounded => exact ⟨_, by simp [rowHolds, selBounded_iff, isChecksum, and_assoc], rfl⟩
  | cksMismatch => exact ⟨_, by simp [rowHolds, isChecksum], rfl⟩
  | eomMatch => exact ⟨_, by simp [rowHolds, isStop], rfl⟩
  | eomMismatch => exact ⟨_, by simp [rowHolds, isStop], rfl⟩
  | default => exact ⟨_, outsideStates_iff, rfl⟩

/-- A row under an invalid configuration is refused (R23). -/
theorem execRow_of_invalid {r : Row} {b : Byte} {s : State} (hv : configValid s.cfg = false) :
    execRow r b s = .refused .invalidConfig := by
  obtain ⟨c, -, he⟩ := execRow_eq_transition r b s
  rw [he, transition_of_invalid hv]

/-- A row whose predicate does not hold is not the selected one (R50, log entry 11). -/
theorem execRow_of_not_rowHolds {r : Row} {b : Byte} {s : State} (hv : configValid s.cfg = true)
    (hr : ¬rowHolds s.view b r) : execRow r b s = .refused .notSelected := by
  obtain ⟨c, hc, he⟩ := execRow_eq_transition r b s
  rw [he, transition_of_valid hv, if_neg (hr ∘ hc.1)]

/-- A row whose predicate holds does what its body says. -/
theorem execRow_of_rowHolds {r : Row} {b : Byte} {s : State} (hv : configValid s.cfg = true)
    (hr : rowHolds s.view b r) : execRow r b s = rowBody b s r := by
  obtain ⟨c, hc, he⟩ := execRow_eq_transition r b s
  rw [he, transition_of_valid hv, if_pos (hc.2 hr)]

theorem execRow_next {r : Row} {b : Byte} {s t : State} :
    execRow r b s = .next t ↔ configValid s.cfg = true ∧ rowHolds s.view b r ∧ rowBody b s r = .next t := by
  obtain ⟨c, hc, he⟩ := execRow_eq_transition r b s
  rw [he, transition_next, hc]

theorem dataBody_next {b : Byte} {s t : State} {f : State → State} :
    dataBody b s f = .next t ↔ payloadFits s = true ∧ t = finishFeed .parsing (f (accumulate b s)) := by
  unfold dataBody
  cases payloadFits s <;> simp [eq_comm]

theorem dataBody_of_full {b : Byte} {s : State} {f : State → State} (h : payloadFits s = false) :
    dataBody b s f = .refused .payloadOverflow := by
  simp [dataBody, h]

/-! ### FEED: the row that the byte decode selects -/

theorem exec_rowInstr (r : Row) (b : Byte) (s : State) : exec (r.instr b) s = execRow r b s := by
  cases r <;> rfl

theorem rowHolds_of_selectData {v : View} {b : Byte} {r : Row} (hst : v.status = .waitData)
    (h : selectData v b = some r) : rowHolds v b r := by
  unfold selectData at h
  split at h
  next => cases h
  next d hsel =>
    split at h
    next n hf =>
      simp only [beq_iff_eq, bne_iff_ne] at h
      split_ifs at h with h0 h1 hc <;> cases h
      · exact ⟨hst, by omega, d, n, hsel, hf⟩
      · exact ⟨hst, by omega, d, n, hsel, hf, hc⟩
      · exact ⟨hst, by omega, d, n, hsel, hf, Bool.eq_false_of_not_eq_true hc⟩
    next hf =>
      simp only [bne_iff_ne] at h
      split_ifs at h with hb hc <;> cases h
      · exact ⟨hst, hb, d, hsel, hf⟩
      · exact ⟨hst, not_not.1 hb, d, hsel, hf, hc⟩
      · exact ⟨hst, not_not.1 hb, d, hsel, hf, Bool.eq_false_of_not_eq_true hc⟩

theorem rowHolds_of_selectCheckSum {v : View} {b : Byte} {r : Row} (hst : v.status = .waitCheckSum)
    (h : selectCheckSum v b = some r) : rowHolds v b r := by
  unfold selectCheckSum at h
  simp only [beq_iff_eq] at h
  split_ifs at h with hb
  · split at h
    next => cases h
    next d hsel =>
      split at h <;> cases h
      next n hf => exact ⟨hst, hb, d, n, hsel, hf⟩
      next hf => exact ⟨hst, hb, d, hsel, hf⟩
  · cases h
    exact ⟨hst, hb⟩

/-- The byte decode selects only a row whose predicate holds (R50). -/
theorem rowHolds_of_selectRow {v : View} {b : Byte} {r : Row} (h : selectRow v b = some r) : rowHolds v b r := by
  unfold selectRow at h
  simp only [beq_iff_eq] at h
  split at h
  next hst => split_ifs at h with hb <;> cases h <;> exact ⟨hst, hb⟩
  next hst =>
    split at h
    next d hd =>
      split at h <;> cases h
      next n hf => exact ⟨hst, d, n, hd, hf⟩
      next hf => exact ⟨hst, d, hd, hf⟩
    next hd => cases h; exact ⟨hst, hd⟩
  next hst => exact rowHolds_of_selectData hst h
  next hst => exact rowHolds_of_selectCheckSum hst h
  next hst => split_ifs at h with hb <;> cases h <;> exact ⟨hst, hb⟩
  next k hst => cases h; exact ⟨k, hst⟩

theorem exec_feed_of_selectRow {s : State} {b : Byte} {r : Row} (h : selectRow s.view b = some r) :
    exec (.feed b) s = execRow r b s := by
  simp [exec, execFeed, h]

theorem exec_feed_of_selectRow_none {s : State} {b : Byte} (h : selectRow s.view b = none) :
    exec (.feed b) s = transition true s (.refused .corruptState) := by
  simp [exec, execFeed, h]

/-- Under a valid configuration a feed does what the body of its selected row says. -/
theorem exec_feed_eq_rowBody {s : State} {b : Byte} {r : Row} (hv : configValid s.cfg = true)
    (h : selectRow s.view b = some r) : exec (.feed b) s = rowBody b s r := by
  rw [exec_feed_of_selectRow h, execRow_of_rowHolds hv (rowHolds_of_selectRow h)]

/-- A feed that answers is one row that answers. -/
theorem exec_feed_next {s t : State} {b : Byte} (h : exec (.feed b) s = .next t) :
    ∃ r, execRow r b s = .next t := by
  cases hr : selectRow s.view b with
  | none => simp [exec_feed_of_selectRow_none hr, transition_next] at h
  | some r => exact ⟨r, exec_feed_of_selectRow hr ▸ h⟩

/-- A feed in `Idle` opens a message on the start marker and reports any other byte (R72, R73). -/
theorem exec_feed_idle {s : State} {b : Byte} (hst : s.status = .idle) :
    exec (.feed b) s = transition true s (rowBody b s (if b = s.cfg.start then .idleSom else .idleSync)) := by
  have hsel : selectRow s.view b = some (if b = s.cfg.start then .idleSom else .idleSync) := by
    simp only [selectRow, view_status, hst, view_cfg, beq_iff_eq]
    split <;> rfl
  cases hv : configValid s.cfg with
  | false => rw [exec_feed_of_selectRow hsel, execRow_of_invalid hv, transition_of_invalid hv]
  | true => rw [exec_feed_eq_rowBody hv hsel, transition_of_valid hv, if_pos rfl]

/-! ### What a feed that answers did -/

/-- Back in `Idle` with nothing selected, as error entry and completion leave the session (R84, R87, R111). -/
def atRest (s : State) : State := { s with status := .idle, sel := none }

/-- The state that follows the last payload byte of a descriptor's message (R79, R80, R82, R83). -/
def afterPayload (d : Desc) : Status := if d.cks then .waitCheckSum else .waitEoM

/-- What a feed of `b` can do: its result, and the session it leaves before the outputs are written (`finishFeed`). The
constructors follow T1 to T17, with the two last-byte rows of each framing as one. -/
inductive FeedEffect (s : State) (b : Byte) : Result → State → Prop
  | opened (hst : s.status = .idle) (hb : b = s.cfg.start) :
    FeedEffect s b .parsing { payloadClear s with cks := 0, remaining := 0, status := .waitId }
  | stray (hst : s.status = .idle) (hb : b ≠ s.cfg.start) : FeedEffect s b (.error .syncError none) s
  | identified {d : Desc} (hst : s.status = .waitId) (hd : tableRead s.cfg.table b = some d) :
    FeedEffect s b .parsing (selectDescriptor d s)
  | unknownId (hst : s.status = .waitId) (hd : tableRead s.cfg.table b = none) :
    FeedEffect s b (.error .missingId none) (atRest s)
  | sizedMore {d : Desc} {n : Nat} (hst : s.status = .waitData) (hsel : s.sel = some d) (hf : d.framing = .sized n)
      (hrem : 2 ≤ s.remaining) (hfit : payloadFits s = true) :
    FeedEffect s b .parsing { accumulate b s with remaining := countdown s.remaining }
  | sizedLast {d : Desc} {n : Nat} (hst : s.status = .waitData) (hsel : s.sel = some d) (hf : d.framing = .sized n)
      (hrem : s.remaining = 1) (hfit : payloadFits s = true) :
    FeedEffect s b .parsing { accumulate b s with remaining := countdown s.remaining, status := afterPayload d }
  | boundedMore {d : Desc} (hst : s.status = .waitData) (hsel : s.sel = some d) (hf : d.framing = .bounded)
      (hb : b ≠ s.cfg.stop) (hfit : payloadFits s = true) :
    FeedEffect s b .parsing (accumulate b s)
  | boundedLast {d : Desc} (hst : s.status = .waitData) (hsel : s.sel = some d) (hf : d.framing = .bounded)
      (hb : b = s.cfg.stop) (hfit : payloadFits s = true) :
    FeedEffect s b .parsing { accumulate b s with status := afterPayload d }
  | checksumSized {d : Desc} {n : Nat} (hst : s.status = .waitCheckSum) (hsel : s.sel = some d)
      (hf : d.framing = .sized n) (hb : b = s.cks) :
    FeedEffect s b (.completed d.id s.payload) (atRest s)
  | checksumBounded {d : Desc} (hst : s.status = .waitCheckSum) (hsel : s.sel = some d) (hf : d.framing = .bounded)
      (hb : b = s.cks) :
    FeedEffect s b .parsing { s with status := .waitEoM }
  | wrongChecksum (hst : s.status = .waitCheckSum) (hb : b ≠ s.cks) :
    FeedEffect s b (.error .checksum (some b)) (atRest s)
  | endMarker {d : Desc} (hst : s.status = .waitEoM) (hsel : s.sel = some d) (hb : b = s.cfg.stop) :
    FeedEffect s b (.completed d.id s.payload) (atRest s)
  | wrongEndMarker (hst : s.status = .waitEoM) (hb : b ≠ s.cfg.stop) :
    FeedEffect s b (.error .missingEom (some b)) (atRest s)
  | illegalStatus {k : Fin 3} (hst : s.status = .other k) : FeedEffect s b (.error .formatError (some b)) (atRest s)

/-- A row that answers has one of the effects. -/
theorem execRow_effect {r : Row} {b : Byte} {s t : State} (h : execRow r b s = .next t) :
    ∃ res u, FeedEffect s b res u ∧ t = finishFeed res u := by
  obtain ⟨-, hr, hbody⟩ := execRow_next.1 h
  cases r with
  | idleSom => cases hbody; exact ⟨_, _, .opened hr.1 hr.2, rfl⟩
  | idleSync => cases hbody; exact ⟨_, _, .stray hr.1 hr.2, rfl⟩
  | idHitSized =>
    obtain ⟨hst, d, n, (hd : tableRead s.cfg.table b = some d), -⟩ := hr
    simp only [rowBody, hd] at hbody
    cases hbody
    exact ⟨_, _, .identified hst hd, rfl⟩
  | idHitBounded =>
    obtain ⟨hst, d, (hd : tableRead s.cfg.table b = some d), -⟩ := hr
    simp only [rowBody, hd] at hbody
    cases hbody
    exact ⟨_, _, .identified hst hd, rfl⟩
  | idMiss => exact ⟨_, _, .unknownId hr.1 hr.2, raiseError_next.1 hbody⟩
  | dataSizedMore =>
    obtain ⟨hst, hrem, d, n, hsel, hf⟩ := hr
    rw [rowBody, dataBody_next] at hbody
    obtain ⟨hfit, rfl⟩ := hbody
    exact ⟨_, _, .sizedMore hst hsel hf hrem hfit, rfl⟩
  | dataSizedLastCk | dataSizedLastNock =>
    obtain ⟨hst, hrem, d, n, hsel, hf, hc⟩ := hr
    rw [rowBody, dataBody_next] at hbody
    obtain ⟨hfit, rfl⟩ := hbody
    exact ⟨_, _, .sizedLast hst hsel hf hrem hfit, by simp [afterPayload, hc]⟩
  | dataBoundedMore =>
    obtain ⟨hst, hb, d, hsel, hf⟩ := hr
    rw [rowBody, dataBody_next] at hbody
    obtain ⟨hfit, rfl⟩ := hbody
    exact ⟨_, _, .boundedMore hst hsel hf hb hfit, rfl⟩
  | dataBoundedTermCk | dataBoundedTermNock =>
    obtain ⟨hst, hb, d, hsel, hf, hc⟩ := hr
    rw [rowBody, dataBody_next] at hbody
    obtain ⟨hfit, rfl⟩ := hbody
    exact ⟨_, _, .boundedLast hst hsel hf hb hfit, by simp [afterPayload, hc]⟩
  | cksMatchSized =>
    obtain ⟨hst, hb, d, n, hsel, hf⟩ := hr
    obtain ⟨e, he, rfl⟩ := completeMessage_next.1 hbody
    cases hsel.symm.trans he
    exact ⟨_, _, .checksumSized hst hsel hf hb, rfl⟩
  | cksMatchBounded =>
    obtain ⟨hst, hb, d, hsel, hf⟩ := hr
    cases hbody
    exact ⟨_, _, .checksumBounded hst hsel hf hb, rfl⟩
  | cksMismatch => exact ⟨_, _, .wrongChecksum hr.1 hr.2, raiseError_next.1 hbody⟩
  | eomMatch =>
    obtain ⟨d, hsel, rfl⟩ := completeMessage_next.1 hbody
    exact ⟨_, _, .endMarker hr.1 hsel hr.2, rfl⟩
  | eomMismatch => exact ⟨_, _, .wrongEndMarker hr.1 hr.2, raiseError_next.1 hbody⟩
  | default =>
    obtain ⟨k, hst⟩ := hr
    exact ⟨_, _, .illegalStatus hst, raiseError_next.1 hbody⟩

theorem exec_feed_effect {s t : State} {b : Byte} (h : exec (.feed b) s = .next t) :
    ∃ res u, FeedEffect s b res u ∧ t = finishFeed res u := by
  obtain ⟨r, hr⟩ := exec_feed_next h
  exact execRow_effect hr

/-! ### The invariant, seen from the selected descriptor -/

/-- How far a message of descriptor `d` has come (R20 (iv) to (ix)): the countdown against the payload before its last byte,
the closed payload after it, and which of the two closing states the descriptor asks for. -/
def MessageProgress (d : Desc) (s : State) : Prop :=
  match s.status, d.framing with
  | .waitData, .sized n => 1 ≤ s.remaining ∧ s.remaining ≤ n ∧ s.payload.length = n - s.remaining
  | .waitData, .bounded => s.remaining = 0 ∧ s.cfg.stop ∉ s.payload
  | .waitCheckSum, .sized n => (s.remaining = 0 ∧ s.payload.length = n) ∧ d.cks = true
  | .waitCheckSum, .bounded => (∃ ds, s.payload = ds ++ [s.cfg.stop] ∧ s.cfg.stop ∉ ds) ∧ d.cks = true
  | .waitEoM, .sized n => (s.remaining = 0 ∧ s.payload.length = n) ∧ d.cks = false
  | .waitEoM, .bounded => ∃ ds, s.payload = ds ++ [s.cfg.stop] ∧ s.cfg.stop ∉ ds
  | _, _ => False

theorem Inv.messageProgress {s : State} {d : Desc} (h : Inv s) (hsel : s.sel = some d) : MessageProgress d s := by
  obtain ⟨i, f, c⟩ := d
  have hst : s.status = .waitData ∨ s.status = .waitCheckSum ∨ s.status = .waitEoM := h.selected_iff.1 (by simp [hsel])
  rcases hst with hst | hst | hst <;> cases f <;> simp only [MessageProgress, hst]
  case inl.bounded => exact h.data_bounded i c hst hsel
  case inl.sized n => exact h.data_sized i n c hst hsel
  case inr.inl.bounded => exact ⟨h.closed_bounded i c (.inl hst) hsel, h.checksum_wanted _ hst hsel⟩
  case inr.inl.sized n => exact ⟨h.closed_sized i n c (.inl hst) hsel, h.checksum_wanted _ hst hsel⟩
  case inr.inr.bounded => exact h.closed_bounded i c (.inr hst) hsel
  case inr.inr.sized n => exact ⟨h.closed_sized i n c (.inr hst) hsel, h.eom_sized_plain i n c hst hsel⟩

/-- A parsing state with a selected descriptor meets the invariant where its message's progress does. -/
theorem Inv.of_messageProgress {s t : State} {d : Desc} (h : Inv s) (hcfg : t.cfg = s.cfg) (hstarted : t.started = true)
    (hsel : t.sel = some d) (hd : tableRead t.cfg.table d.id = some d) (hprog : MessageProgress d t)
    (hcks : t.cks = if d.cks then checksum t.payload else 0)
    (hheld : withinBound t.cfg.payloadMax t.payload.length = true) : Inv t where
  config_valid := hcfg ▸ h.config_valid
  lengths_held := hcfg ▸ h.lengths_held
  setup_session h0 := by simp [hstarted] at h0
  status_legal k hk := by simp [MessageProgress, hk] at hprog
  selected_iff := by
    cases hst : t.status <;> simp [MessageProgress, hst] at hprog <;> simp [hsel]
  selected_in_table e he := by cases hsel.symm.trans he; exact hd
  waitId_cleared hst := by simp [MessageProgress, hst] at hprog
  data_sized i n c hst he := by cases hsel.symm.trans he; simpa [MessageProgress, hst] using hprog
  data_bounded i c hst he := by cases hsel.symm.trans he; simpa [MessageProgress, hst] using hprog
  closed_sized i n c hst he := by
    cases hsel.symm.trans he
    rcases hst with hst | hst <;> simp only [MessageProgress, hst] at hprog <;> exact hprog.1
  closed_bounded i c hst he := by
    cases hsel.symm.trans he
    rcases hst with hst | hst <;> simp only [MessageProgress, hst] at hprog
    · exact hprog.1
    · exact hprog
  checksum_wanted e hst he := by
    cases hsel.symm.trans he
    cases hf : d.framing <;> simp only [MessageProgress, hst, hf] at hprog <;> exact hprog.2
  eom_sized_plain i n c hst he := by
    cases hsel.symm.trans he
    simp only [MessageProgress, hst] at hprog
    exact hprog.2
  accumulator e he := by cases hsel.symm.trans he; exact hcks
  payload_held := hheld

/-- A state in `Idle` with nothing selected meets the invariant, whatever the stale fields (R26) where parsing is on. -/
theorem inv_of_idle {s : State} (hv : configValid s.cfg = true)
    (hl : ∀ d ∈ s.cfg.table, lengthHeld s.cfg d.framing = true) (hst : s.status = .idle) (hsel : s.sel = none)
    (hsetup : s.started = false → s.payload = [] ∧ s.remaining = 0 ∧ s.cks = 0)
    (hheld : withinBound s.cfg.payloadMax s.payload.length = true) : Inv s where
  config_valid := hv
  lengths_held := hl
  setup_session h0 := by
    obtain ⟨hp, hr, hc⟩ := hsetup h0
    exact ⟨hst, hp, hr, hc, hsel⟩
  status_legal := by simp [hst]
  selected_iff := by simp [hst, hsel]
  selected_in_table := by simp [hsel]
  waitId_cleared := by simp [hst]
  data_sized := by simp [hst]
  data_bounded := by simp [hst]
  closed_sized := by simp [hst]
  closed_bounded := by simp [hst]
  checksum_wanted := by simp [hst]
  eom_sized_plain := by simp [hst]
  accumulator := by simp [hsel]
  payload_held := hheld

theorem withinBound_zero (bound : Option Nat) : withinBound bound 0 = true := by
  cases bound <;> simp [withinBound]

/-- A state whose session is at its reset values (R27) meets the invariant under every valid configuration. -/
theorem inv_of_untouched {s : State} (hv : configValid s.cfg = true)
    (hl : ∀ d ∈ s.cfg.table, lengthHeld s.cfg d.framing = true)
    (hs : s.status = .idle ∧ s.payload = [] ∧ s.remaining = 0 ∧ s.cks = 0 ∧ s.sel = none) : Inv s := by
  obtain ⟨hst, hp, hr, hc, hsel⟩ := hs
  exact inv_of_idle hv hl hst hsel (fun _ => ⟨hp, hr, hc⟩) (by simp [hp, withinBound_zero])

/-- Nothing is selected in `Idle` and in `WaitId` (R20 (ii)). -/
theorem Inv.sel_none {s : State} (h : Inv s) (hst : s.status = .idle ∨ s.status = .waitId) : s.sel = none := by
  have := h.selected_iff
  rcases hst with hst | hst <;> simpa [hst] using this

/-- No clause of the invariant speaks of the outputs, the inputs, the free values or the observers. -/
theorem Inv.with_outputs {s : State} (h : Inv s) (o : Output) (is : List Input) (k n : Nat) :
    Inv { s with out := o, input := is, free := k, observers := n } := { h with }

/-! ### Every feed keeps the invariant -/

theorem Inv.finishFeed_atRest {s : State} (h : Inv s) (r : Result) : Inv (finishFeed r (atRest s)) :=
  inv_of_idle h.config_valid h.lengths_held rfl rfl nofun h.payload_held

/-- The start marker clears the session (R72, R21). -/
theorem Inv.finishFeed_opened {s : State} (h : Inv s) (hst : s.status = .idle) :
    Inv (finishFeed .parsing { payloadClear s with cks := 0, remaining := 0, status := .waitId }) where
  config_valid := h.config_valid
  lengths_held := h.lengths_held
  setup_session := nofun
  status_legal := nofun
  selected_iff := by simp [h.sel_none (.inl hst)]
  selected_in_table := by simp [h.sel_none (.inl hst)]
  waitId_cleared _ := ⟨rfl, rfl, rfl⟩
  data_sized := nofun
  data_bounded := nofun
  closed_sized := by simp
  closed_bounded := by simp
  checksum_wanted := nofun
  eom_sized_plain := nofun
  accumulator := by simp [h.sel_none (.inl hst)]
  payload_held := withinBound_zero _

/-- A descriptor of a valid table has no unset length (R64). -/
theorem unset_of_mem {cfg : Config} {d : Desc} (hv : configValid cfg = true) (hd : d ∈ cfg.table) :
    d.framing.unset = false := by
  simp only [configValid, Bool.and_eq_true, List.all_eq_true, Bool.not_eq_true'] at hv
  exact hv.2 d hd

/-- A message starts with the whole length still to come and an empty payload (R74, R75). -/
theorem messageProgress_selectDescriptor {s : State} {d : Desc} (hp : s.payload = []) (hd : d.framing.unset = false) :
    MessageProgress d (selectDescriptor d s) := by
  cases hf : d.framing with
  | bounded => simp [MessageProgress, hf, lengthOperand, hp]
  | sized n =>
    have hn : n ≠ 0 := by simpa [hf, Framing.unset] using hd
    simp [MessageProgress, hf, lengthOperand, hp]
    omega

theorem Inv.finishFeed_selectDescriptor {s : State} {b : Byte} {d : Desc} (h : Inv s) (hst : s.status = .waitId)
    (hd : tableRead s.cfg.table b = some d) : Inv (finishFeed .parsing (selectDescriptor d s)) := by
  obtain ⟨hp, hc, -⟩ := h.waitId_cleared hst
  have hprog := messageProgress_selectDescriptor hp (unset_of_mem h.config_valid (tableRead_mem hd))
  refine h.of_messageProgress rfl rfl rfl ?_ hprog ?_ h.payload_held
  · exact (tableRead_id hd).symm ▸ hd
  · simp [hp, hc]

/-- An appended byte keeps the invariant where it keeps the message's progress: the accumulator follows the payload
(R77, R92), and the byte was checked to fit (R34). -/
theorem Inv.finishFeed_accumulate {s : State} {b : Byte} {d : Desc} (h : Inv s) (hsel : s.sel = some d)
    (hfit : payloadFits s = true) {n : Nat} {a : Status}
    (hprog : MessageProgress d { accumulate b s with remaining := n, status := a }) :
    Inv (finishFeed .parsing { accumulate b s with remaining := n, status := a }) := by
  refine h.of_messageProgress rfl rfl hsel (h.selected_in_table d hsel) hprog ?_ ?_
  · have hacc := h.accumulator d hsel
    cases hc : d.cks <;>
      simp [selChecks_of_sel hsel, hc, checksum_append_singleton, hacc]
  · simpa [payloadFits] using hfit

/-- Every effect of a feed keeps the invariant. -/
theorem Inv.of_feedEffect {s u : State} {b : Byte} {r : Result} (h : Inv s) (he : FeedEffect s b r u) :
    Inv (finishFeed r u) := by
  cases he with
  | opened hst _ => exact h.finishFeed_opened hst
  | stray hst _ =>
    exact inv_of_idle h.config_valid h.lengths_held hst (h.sel_none (.inl hst)) nofun h.payload_held
  | identified hst hd => exact h.finishFeed_selectDescriptor hst hd
  | unknownId | checksumSized | wrongChecksum | endMarker | wrongEndMarker | illegalStatus =>
    exact h.finishFeed_atRest _
  | @sizedMore d n hst hsel hf hrem hfit =>
    refine h.finishFeed_accumulate hsel hfit (a := s.status) ?_
    have hprog := h.messageProgress hsel
    simp only [MessageProgress, hst, hf, countdown, accumulate_payload, List.length_append, List.length_singleton]
      at hprog ⊢
    omega
  | @sizedLast d n hst hsel hf hrem hfit =>
    refine h.finishFeed_accumulate hsel hfit ?_
    have hprog := h.messageProgress hsel
    simp only [MessageProgress, hst, hf] at hprog
    cases hc : d.cks <;> simp [MessageProgress, afterPayload, hc, hf, countdown] <;> omega
  | @boundedMore d hst hsel hf hb hfit =>
    refine h.finishFeed_accumulate hsel hfit (n := s.remaining) (a := s.status) ?_
    have hprog := h.messageProgress hsel
    simp only [MessageProgress, hst, hf] at hprog
    simpa [MessageProgress, hst, hf, Ne.symm hb] using hprog
  | @boundedLast d hst hsel hf hb hfit =>
    refine h.finishFeed_accumulate hsel hfit (n := s.remaining) ?_
    have hprog := h.messageProgress hsel
    simp only [MessageProgress, hst, hf] at hprog
    cases hc : d.cks <;> simp [MessageProgress, afterPayload, hc, hf, hb, hprog.2]
  | @checksumBounded d hst hsel hf hb =>
    have hprog := h.messageProgress hsel
    simp only [MessageProgress, hst, hf] at hprog
    refine h.of_messageProgress rfl rfl hsel (h.selected_in_table d hsel) ?_ (h.accumulator d hsel) h.payload_held
    simpa [MessageProgress, hf] using hprog.1

/-! ### The table operations keep the table good -/

/-- A table that a parser with the capacities of `cfg` may hold: canonical, every length set (R64) and held (R67). -/
def TableGood (cfg : Config) (t : Table) : Prop :=
  tableSorted t = true ∧ ∀ d ∈ t, d.framing.unset = false ∧ lengthHeld cfg d.framing = true

theorem tableGood_nil (cfg : Config) : TableGood cfg [] := ⟨rfl, by simp⟩

theorem TableGood.configValid {cfg : Config} {t : Table} (h : TableGood cfg t) :
    configValid { cfg with table := t } = true := by
  simp only [Machine.configValid, Bool.and_eq_true, List.all_eq_true, Bool.not_eq_true']
  exact ⟨h.1, fun d hd => (h.2 d hd).1⟩

theorem Inv.tableGood {s : State} (h : Inv s) : TableGood s.cfg s.cfg.table := by
  have hv := h.config_valid
  rw [configValid, Bool.and_eq_true] at hv
  exact ⟨hv.1, fun d hd => ⟨unset_of_mem h.config_valid hd, h.lengths_held d hd⟩⟩

/-- A successful registration keeps the table good (R65). -/
theorem TableGood.insert {cfg : Config} {t : Table} {r : Req} (h : TableGood cfg t) (hr : registerCase cfg t r = .ok) :
    TableGood cfg (tableInsert ⟨r.id, r.framing, r.cks⟩ t) := by
  obtain ⟨hset, hheld, hnew⟩ := registerCase_ok.1 hr
  refine ⟨tableSorted_tableInsert h.1 hnew, fun d hd => ?_⟩
  rcases mem_tableInsert.1 hd with rfl | hd
  · exact ⟨hset, hheld⟩
  · exact h.2 d hd

/-- So does the loop of `BUILD` (R70). -/
theorem TableGood.buildFrom {cfg : Config} {rs : List Req} {t u : Table} (h : TableGood cfg t)
    (hu : buildFrom cfg t rs = .done (.ok u)) : TableGood cfg u := by
  induction rs generalizing t with
  | nil => cases hu; exact h
  | cons r rs ih =>
    simp only [Machine.buildFrom] at hu
    split at hu
    next hc => exact ih (h.insert hc) hu
    all_goals cases hu

/-! ### Every step keeps the invariant -/

/-- What setup writes, a configuration beside an untouched session, keeps the invariant. -/
theorem Inv.reconfigure {s : State} (h : Inv s) (hs : s.started = false) {cfg : Config} (hv : configValid cfg = true)
    (hl : ∀ d ∈ cfg.table, lengthHeld cfg d.framing = true) (o : Output) : Inv { s with cfg := cfg, out := o } :=
  inv_of_untouched hv hl (h.setup_session hs)

/-- In setup the table may be replaced by any good one (R37). -/
theorem Inv.retable {s : State} (h : Inv s) (hs : s.started = false) {t : Table} (ht : TableGood s.cfg t) (o : Output) :
    Inv { s with cfg := { s.cfg with table := t }, out := o } :=
  h.reconfigure hs ht.configValid (fun d hd => (ht.2 d hd).2) o

theorem Inv.exec_registerInstr {s t : State} {c : RegCase} {r : Req} (h : Inv s)
    (ht : exec (registerInstr c r) s = .next t) : Inv t := by
  cases c with
  | ok =>
    obtain ⟨hs, hc, hn⟩ := registration_next.1 ht
    cases hn
    exact h.retable hs (h.tableGood.insert hc) _
  | sizeNotSet | idAliasing =>
    obtain ⟨-, -, hn⟩ := registration_next.1 ht
    cases hn
    exact h.with_outputs _ s.input s.free s.observers
  | tooLong =>
    obtain ⟨-, -, hn⟩ := registration_next.1 ht
    cases hn

theorem Inv.execBuild {s t : State} {rs : List Req} (h : Inv s) (ht : execBuild rs s = .next t) : Inv t := by
  obtain ⟨hs, ⟨u, hu, rfl⟩ | ⟨e, -, rfl⟩⟩ := execBuild_next.1 ht
  · exact h.retable hs (installTable_induct h.tableGood ((tableGood_nil s.cfg).buildFrom hu)) _
  · exact h.with_outputs _ s.input s.free s.observers

theorem inv_execReset {s t : State} (ht : execReset s = .next t) : Inv t := by
  cases ht
  exact inv_of_untouched (tableGood_nil s.cfg).configValid (by simp) ⟨rfl, rfl, rfl, rfl, rfl⟩

theorem Inv.exec_feed {s t : State} {b : Byte} (h : Inv s) (ht : exec (.feed b) s = .next t) : Inv t := by
  obtain ⟨r, u, he, rfl⟩ := exec_feed_effect ht
  exact h.of_feedEffect he

theorem Inv.hold {s : State} (h : Inv s) : Inv (hold s) := h.with_outputs {} s.input s.free s.observers

/-- Markers are fixed beside an untouched session, or not at all (R124, R125). -/
theorem Inv.fixMarkers {s t : State} {a z : Byte} (h : Inv s) (ht : fixMarkers a z s = .next t) : Inv t := by
  rcases fixMarkers_next.1 ht with ⟨hs, rfl⟩ | ⟨-, -, -, rfl⟩
  · exact h.reconfigure hs (cfg := { s.cfg with start := a, stop := z }) h.config_valid h.lengths_held {}
  · exact h.hold

theorem Inv.subscribe {s t : State} (h : Inv s) (ht : subscribe s = .next t) : Inv t := by
  obtain ⟨-, rfl⟩ := subscribe_next.1 ht
  exact h.with_outputs {} s.input s.free (s.observers + 1)

/-- A stream byte runs a row, or is rejected (R50). -/
theorem Inv.runDecoded_decodeByte {s t : State} {v : View} {b : Byte} (h : Inv s)
    (ht : runDecoded (decodeByte v b) s = .next t) : Inv t := by
  unfold decodeByte at ht
  split at ht
  next r _ =>
    obtain ⟨res, u, he, rfl⟩ := execRow_effect ((exec_rowInstr r b s).symm.trans ht)
    exact h.of_feedEffect he
  next => cases ht

/-- A clock edge is a reset, a refusal, a registration, a feed, or nothing (R58, R61). -/
theorem Inv.runDecoded_decodeCycle {s t : State} {v : View} {p : Pins} (h : Inv s)
    (ht : runDecoded (decodeCycle v p) s = .next t) : Inv t := by
  unfold decodeCycle at ht
  split_ifs at ht
  · exact inv_execReset ht
  · cases ht
  · exact h.exec_registerInstr ht
  · exact h.exec_feed ht
  · cases ht; exact h.hold

/-- Whatever an input decodes to, in whatever view, running it keeps the invariant. -/
theorem Inv.runDecoded_decode {s t : State} {v : View} {i : Input} (h : Inv s)
    (ht : runDecoded (decode v i) s = .next t) : Inv t := by
  cases i with
  | byte b => exact h.runDecoded_decodeByte ht
  | register r => exact h.exec_registerInstr ht
  | lookup id => cases ht; exact h.with_outputs _ s.input s.free s.observers
  | build rs => exact h.execBuild ht
  | reset => exact inv_execReset ht
  | markers a z => exact h.fixMarkers ht
  | subscribe => exact h.subscribe ht
  | overlap bs => cases ht
  | cycle p => exact h.runDecoded_decodeCycle ht

/-- The read port touches the outputs and the free-value counter alone (R60). -/
theorem readPort_eq (i : Input) (s t : State) : ∃ o k, readPort i s t = { t with out := o, free := k } := by
  unfold readPort
  split
  · exact ⟨t.out, t.free, rfl⟩
  · split <;> exact ⟨_, _, rfl⟩

theorem Inv.readPort {t : State} (h : Inv t) (i : Input) (s : State) : Inv (readPort i s t) := by
  obtain ⟨o, k, he⟩ := readPort_eq i s t
  exact he ▸ h.with_outputs o t.input k t.observers

/-- A step holds where nothing is on the inputs (R137), and otherwise runs the decoded input on the state with the input
taken, with the read port beside it. -/
theorem step_next {s t : State} :
    step s = .next t ↔ (s.input = [] ∧ t = hold s) ∨
      ∃ i rest u, s.input = i :: rest ∧ runDecoded (decode s.view i) { s with input := rest } = .next u ∧
        t = readPort i s u := by
  unfold step
  split
  next hi => simp [hi, eq_comm]
  next i rest hi => simp [hi, withReadPort_next]

/-- Settles O31. -/
theorem resetMeetsTheInvariant : Obligations.ResetMeetsTheInvariant :=
  inv_of_untouched rfl (by simp [State.reset, Config.atReset]) ⟨rfl, rfl, rfl, rfl, rfl⟩

/-- Settles O32: the invariant is kept by what the step runs and is blind to the input taken and the read port. -/
theorem everyStepKeepsTheInvariant : Obligations.EveryStepKeepsTheInvariant := by
  intro s t h ht
  obtain ⟨-, rfl⟩ | ⟨i, rest, u, -, hu, rfl⟩ := step_next.1 ht
  · exact h.hold
  · have hrest : Inv { s with input := rest } := h.with_outputs s.out rest s.free s.observers
    exact (hrest.runDecoded_decode hu).readPort i s

/-! ### What a feed leaves behind -/

/-- Before the outputs are written, a feed's effect has changed session fields only (R23, R36). -/
theorem FeedEffect.frame {s u : State} {b : Byte} {r : Result} (he : FeedEffect s b r u) :
    u.cfg = s.cfg ∧ u.observers = s.observers ∧ u.input = s.input ∧ u.free = s.free := by
  cases he <;> exact ⟨rfl, rfl, rfl, rfl⟩

/-- An effect with a terminal result leaves the session at rest, or, for a stray byte, as it was in `Idle` (R73). -/
theorem FeedEffect.terminal {s u : State} {b : Byte} {r : Result} (he : FeedEffect s b r u) (hr : r ≠ .parsing) :
    u = atRest s ∨ (s.status = .idle ∧ u = s) := by
  cases he with
  | stray hst _ => exact .inr ⟨hst, rfl⟩
  | unknownId | checksumSized | wrongChecksum | endMarker | wrongEndMarker | illegalStatus => exact .inl rfl
  | opened | identified | sizedMore | sizedLast | boundedMore | boundedLast | checksumBounded => exact absurd rfl hr

/-- A message completes in `WaitCheckSum` under `Sized` framing or in `WaitEoM`, with the payload as it stands (R84, R87). -/
theorem FeedEffect.completed {s u : State} {b i : Byte} {p : List Byte} (he : FeedEffect s b (.completed i p) u) :
    p = s.payload ∧ u = atRest s ∧ ∃ d, s.sel = some d ∧ i = d.id ∧
      (s.status = .waitEoM ∨ s.status = .waitCheckSum ∧ d.framing ≠ .bounded) := by
  cases he with
  | checksumSized hst hsel hf _ => exact ⟨rfl, rfl, _, hsel, rfl, .inr ⟨hst, by simp [hf]⟩⟩
  | endMarker hst hsel _ => exact ⟨rfl, rfl, _, hsel, rfl, .inl hst⟩

/-- Settles O49: the end of a feed writes the phase and the outputs on top of the effect's frame. -/
theorem feedKeepsConfiguration : Obligations.FeedKeepsConfiguration := by
  intro s t b ht
  obtain ⟨r, u, he, rfl⟩ := exec_feed_effect ht
  obtain ⟨hcfg, hobs, hin, -⟩ := he.frame
  exact ⟨hcfg, hobs, hin, rfl⟩

/-- Settles O40: a stray byte finds the session at rest, every other terminal result puts it there. -/
theorem terminalResultsRestInIdle : Obligations.TerminalResultsRestInIdle := by
  intro s t b h ht hres
  obtain ⟨r, u, he, rfl⟩ := exec_feed_effect ht
  rcases he.terminal (fun hr => hres (congrArg some hr)) with rfl | ⟨hst, rfl⟩
  · exact ⟨rfl, rfl⟩
  · exact ⟨hst, h.sel_none (.inl hst)⟩

/-- Settles O41: the closing state's progress is the shape of the reported payload. -/
theorem completedPayloadFitsDescriptor : Obligations.CompletedPayloadFitsDescriptor := by
  intro s t b i p h ht hres
  obtain ⟨r, u, he, rfl⟩ := exec_feed_effect ht
  obtain rfl : r = .completed i p := Option.some.inj hres
  obtain ⟨rfl, rfl, d, hsel, rfl, hst⟩ := he.completed
  have hprog := h.messageProgress hsel
  refine ⟨rfl, rfl, d, hsel, h.selected_in_table d hsel, fun n hf => ?_, fun hf => ?_, fun hc => ?_⟩
  · rcases hst with hst | ⟨hst, -⟩ <;> simp only [MessageProgress, hst, hf] at hprog <;> exact hprog.1.2
  · rcases hst with hst | ⟨-, hnb⟩
    · simpa only [MessageProgress, hst, hf] using hprog
    · exact absurd hf hnb
  · simpa [hc] using h.accumulator d hsel

/-! ### Stale fields -/

/-- The state with other values in the three fields that `Idle` does not read (R26). -/
def withStale (p : List Byte) (c : Byte) (r : Nat) (s : State) : State :=
  { s with payload := p, cks := c, remaining := r }

/-- A start marker in `Idle` overwrites the stale fields, so it ends in one state whatever they were (R72). -/
theorem exec_feed_withStale_start {s : State} (hst : s.status = .idle) (p : List Byte) (c : Byte) (r : Nat) :
    exec (.feed s.cfg.start) (withStale p c r s) = exec (.feed s.cfg.start) s := by
  rw [exec_feed_idle hst, exec_feed_idle (s := withStale p c r s) hst]
  simp only [withStale, if_true]
  rfl

/-- A stray byte in `Idle` carries the stale fields along (R73). -/
theorem exec_feed_stray {s : State} {b : Byte} (hst : s.status = .idle) (hb : b ≠ s.cfg.start) :
    exec (.feed b) s = transition true s (.next (finishFeed (.error .syncError none) s)) := by
  rw [exec_feed_idle hst, if_neg hb]
  rfl

/-- The outputs of a run begin with those of its first feed. -/
theorem feedAll_outputs_cons {s t : State} {b : Byte} (bs : List Byte) (ht : exec (.feed b) s = .next t) :
    (feedAll s (b :: bs)).map Prod.snd = ((feedAll t bs).map Prod.snd).map (t.out :: ·) := by
  simp only [feedAll, ht, Option.map_map]
  rfl

theorem feedAll_cons_of_refused {s : State} {b : Byte} {e : Refusal} (bs : List Byte)
    (he : exec (.feed b) s = .refused e) : feedAll s (b :: bs) = none := by
  simp only [feedAll, he]

/-- From `Idle`, the outputs of a run do not depend on the stale fields. -/
theorem feedAll_outputs_withStale {s : State} {bs : List Byte} (hst : s.status = .idle) (p : List Byte) (c : Byte)
    (r : Nat) : (feedAll s bs).map Prod.snd = (feedAll (withStale p c r s) bs).map Prod.snd := by
  induction bs generalizing s with
  | nil => rfl
  | cons b bs ih =>
    by_cases hb : b = s.cfg.start
    · subst hb
      simp only [feedAll, exec_feed_withStale_start hst]
    · have hs := exec_feed_stray hst hb
      have hw := exec_feed_stray (s := withStale p c r s) hst hb
      cases hv : configValid s.cfg with
      | false =>
        rw [transition_of_invalid hv] at hs
        rw [transition_of_invalid (s := withStale p c r s) hv] at hw
        rw [feedAll_cons_of_refused bs hs, feedAll_cons_of_refused bs hw]
      | true =>
        rw [transition_of_valid hv, if_pos rfl] at hs
        rw [transition_of_valid (s := withStale p c r s) hv, if_pos rfl] at hw
        rw [feedAll_outputs_cons bs hs, feedAll_outputs_cons bs hw, ih (s := finishFeed _ s) hst]
        rfl

/-- Settles O46: the stale fields are carried along until a start marker overwrites them. -/
theorem staleFieldsAreUnobservable : Obligations.StaleFieldsAreUnobservable :=
  fun _ p c r _ hst => feedAll_outputs_withStale hst p c r

/-! ### Launches without a meaning -/

theorem exec_feed_of_invalid {s : State} {b : Byte} (hv : configValid s.cfg = false) :
    exec (.feed b) s = .refused .invalidConfig := by
  cases hr : selectRow s.view b with
  | none => rw [exec_feed_of_selectRow_none hr, transition_of_invalid hv]
  | some r => rw [exec_feed_of_selectRow hr, execRow_of_invalid hv]

theorem payloadFits_eq_false {s : State} {m : Nat} (hm : s.cfg.payloadMax = some m) (hfull : m ≤ s.payload.length) :
    payloadFits s = false := by
  simp [payloadFits, hm, withinBound]
  omega

/-- A coherent `WaitData` state selects a row for every byte (R71, D22). -/
theorem selectRow_waitData {v : View} {b : Byte} (hc : viewCoherent v) (hst : v.status = .waitData) :
    ∃ r, selectRow v b = some r := by
  obtain ⟨d, hsel, hrem⟩ := hc.1 hst
  simp only [selectRow, hst, selectData, hsel]
  cases hf : d.framing with
  | bounded => split_ifs <;> exact ⟨_, rfl⟩
  | sized n =>
    have : v.remaining ≠ 0 := Nat.one_le_iff_ne_zero.1 (hrem n hf)
    simp only [beq_iff_eq, if_neg this]
    split_ifs <;> exact ⟨_, rfl⟩

/-- In `WaitData` every row writes through the buffer's check (R34). -/
theorem rowBody_waitData {s : State} {b : Byte} {r : Row} (hr : rowHolds s.view b r) (hst : s.status = .waitData) :
    ∃ f, rowBody b s r = dataBody b s f := by
  have hst : s.view.status = .waitData := hst
  cases r with
  | dataSizedMore | dataSizedLastCk | dataSizedLastNock | dataBoundedMore | dataBoundedTermCk | dataBoundedTermNock =>
    exact ⟨_, by rw [rowBody]⟩
  | default =>
    obtain ⟨k, hk⟩ := hr
    cases hst.symm.trans hk
  | idleSom | idleSync | idHitSized | idHitBounded | idMiss | cksMatchSized | cksMatchBounded | cksMismatch | eomMatch
  | eomMismatch =>
    exact absurd (hst.symm.trans hr.1) nofun

theorem exec_feed_of_full {s : State} {b : Byte} {m : Nat} (hv : configValid s.cfg = true) (hc : viewCoherent s.view)
    (hst : s.status = .waitData) (hm : s.cfg.payloadMax = some m) (hfull : m ≤ s.payload.length) :
    exec (.feed b) s = .refused .payloadOverflow := by
  obtain ⟨r, hr⟩ := selectRow_waitData (b := b) hc hst
  obtain ⟨f, hf⟩ := rowBody_waitData (rowHolds_of_selectRow hr) hst
  rw [exec_feed_eq_rowBody hv hr, hf, dataBody_of_full (payloadFits_eq_false hm hfull)]

/-- The end marker in `WaitEoM` selects completion, which needs a descriptor (U6). -/
theorem exec_feed_stop_of_unselected {s : State} (hv : configValid s.cfg = true) (hst : s.status = .waitEoM)
    (hsel : s.sel = none) : exec (.feed s.cfg.stop) s = .refused .corruptState := by
  have hr : selectRow s.view s.cfg.stop = some .eomMatch := by simp [selectRow, hst]
  rw [exec_feed_eq_rowBody hv hr]
  simp [rowBody, completeMessage, hsel]

/-- A registration row refuses a request of another outcome (R115, log entry 11). -/
theorem exec_registerInstr_of_ne {s : State} {r : Req} {c : RegCase} (hs : s.started = false)
    (hc : registerCase s.cfg s.cfg.table r ≠ c) : exec (registerInstr c r) s = .refused .notSelected := by
  have hreg (o : StepOut) : registration c r s o = .refused .notSelected := by simp [registration, inSetup, hs, hc]
  cases c <;> exact hreg _

/-- `BUILD` goes on from the table that its first requests yield (R70). -/
theorem buildFrom_append {cfg : Config} {pre rs : List Req} {t u : Table}
    (h : buildFrom cfg t pre = .done (.ok u)) : buildFrom cfg t (pre ++ rs) = buildFrom cfg u rs := by
  induction pre generalizing t with
  | nil => cases h; rfl
  | cons r pre ih =>
    simp only [List.cons_append, buildFrom] at h ⊢
    split at h
    next => exact ih h
    all_goals cases h

theorem exec_build_of_tooLong {s : State} {pre post : List Req} {q : Req} {u : Table} (hs : s.started = false)
    (hpre : buildFrom s.cfg [] pre = .done (.ok u)) (hq : q.framing ≠ .sized 0)
    (hlong : lengthHeld s.cfg q.framing = false) :
    exec (.build (pre ++ q :: post)) s = .refused .lengthTooLong := by
  have hset : q.framing.unset = false := by
    cases hf : q.framing with
    | bounded => rfl
    | sized n => simpa [Framing.unset, hf] using hq
  have hcase : registerCase s.cfg u q = .tooLong := registerCase_tooLong.2 ⟨hset, hlong⟩
  have hb : buildFrom s.cfg [] (pre ++ q :: post) = .tooLong := by
    rw [buildFrom_append hpre]
    simp [buildFrom, hcase]
  simp [exec, execBuild, inSetup, hs, hb]

/-- Settles O55, one lemma for each refusal. -/
theorem launchesWithoutMeaningAreRefused : Obligations.LaunchesWithoutMeaningAreRefused := by
  refine ⟨fun s b hv => exec_feed_of_invalid hv, fun s b m hv hc hst hm hfull => exec_feed_of_full hv hc hst hm hfull,
    fun s b hv hr => ?_, fun s hv hst hsel => exec_feed_stop_of_unselected hv hst hsel, fun s b r hv hr => ?_,
    fun s r c hs hc => exec_registerInstr_of_ne hs hc,
    fun s pre post q u hs hpre hq hlong => exec_build_of_tooLong hs hpre hq hlong⟩
  · rw [exec_feed_of_selectRow_none hr, transition_of_valid hv, if_pos rfl]
  · rw [exec_rowInstr, execRow_of_not_rowHolds hv hr]

end Sys2Proof.Machine

/-! SUPPORT. The payload buffer (20_memory.md). First what an index reads after each of the two write operations of R32; then
which of them a feed performs, once for all effects (`FeedEffect.payload`); then the statement. -/

namespace Sys2Proof.Machine

/-! ### What an index reads after a write -/

/-- The payload alone decides what an index reads (R33). -/
theorem payloadRead_congr {s t : State} (h : t.payload = s.payload) (i : Nat) : payloadRead t i = payloadRead s i := by
  rw [payloadRead, payloadRead, h]

@[simp] theorem payloadRead_payloadClear (s : State) (i : Nat) : payloadRead (payloadClear s) i = none := rfl

@[simp] theorem payloadRead_payloadAppend_length (b : Byte) (s : State) :
    payloadRead (payloadAppend b s) s.payload.length = some b :=
  List.getElem?_concat_length

/-- An append disturbs no other index: those below the length keep their byte, those above it still hold none. -/
theorem payloadRead_payloadAppend_of_ne {s : State} {i : Nat} (b : Byte) (hi : i ≠ s.payload.length) :
    payloadRead (payloadAppend b s) i = payloadRead s i := by
  rw [payloadRead, payloadRead, payloadAppend_payload]
  rcases Nat.lt_or_gt_of_ne hi with hlt | hgt
  · exact List.getElem?_append_left hlt
  · rw [List.getElem?_eq_none hgt.le, List.getElem?_eq_none (by simpa using hgt)]

/-! ### The write that a feed performs -/

/-- The write operation of R32 that a feed of `b` performs: an append in `WaitData`, a clear on the start marker in `Idle`, and
none otherwise. -/
def payloadWrite (b : Byte) (s : State) : State :=
  if s.status = .waitData then payloadAppend b s
  else if s.status = .idle ∧ b = s.cfg.start then payloadClear s
  else s

theorem payloadWrite_of_waitData {b : Byte} {s : State} (hst : s.status = .waitData) :
    payloadWrite b s = payloadAppend b s :=
  if_pos hst

theorem payloadWrite_of_start {b : Byte} {s : State} (hstart : s.status = .idle ∧ b = s.cfg.start) :
    payloadWrite b s = payloadClear s := by
  rw [payloadWrite, if_neg (by simp [hstart.1]), if_pos hstart]

theorem payloadWrite_of_neither {b : Byte} {s : State} (hst : s.status ≠ .waitData)
    (hstart : ¬(s.status = .idle ∧ b = s.cfg.start)) : payloadWrite b s = s := by
  rw [payloadWrite, if_neg hst, if_neg hstart]

/-- Outside `WaitData` and `Idle` no feed writes the buffer: identifier, checksum and end-of-message bytes are never
appended. -/
theorem payloadWrite_of_status_ne {b : Byte} {s : State} (hdata : s.status ≠ .waitData) (hidle : s.status ≠ .idle) :
    payloadWrite b s = s :=
  payloadWrite_of_neither hdata fun h => hidle h.1

theorem FeedEffect.payload {s u : State} {b : Byte} {r : Result} (he : FeedEffect s b r u) :
    u.payload = (payloadWrite b s).payload := by
  cases he with
  | opened hst hb => rw [payloadWrite_of_start ⟨hst, hb⟩]
  | stray hst hb => rw [payloadWrite_of_neither (by simp [hst]) fun h => hb h.2]
  | sizedMore hst | sizedLast hst | boundedMore hst | boundedLast hst =>
    change s.payload ++ [b] = _
    rw [payloadWrite_of_waitData hst, payloadAppend_payload]
  | identified hst | unknownId hst | checksumSized hst | checksumBounded hst | wrongChecksum hst | endMarker hst
  | wrongEndMarker hst | illegalStatus hst =>
    change s.payload = _
    rw [payloadWrite_of_status_ne (by simp [hst]) (by simp [hst])]

/-- A feed that answers leaves in the buffer what its one write operation leaves there. -/
theorem exec_feed_payload {s t : State} {b : Byte} (ht : exec (.feed b) s = .next t) :
    t.payload = (payloadWrite b s).payload := by
  obtain ⟨r, u, he, rfl⟩ := exec_feed_effect ht
  exact he.payload

/-- Settles O48: each clause is one write operation of R32, read index by index. -/
theorem feedWritesPayloadOnlyByAppendOrClear : Obligations.FeedWritesPayloadOnlyByAppendOrClear := by
  intro s t b ht
  have hp := exec_feed_payload ht
  refine ⟨fun hst => ?appended, fun hstart i => ?cleared, fun hst hstart i => ?unwritten⟩
  case appended =>
    rw [payloadWrite_of_waitData hst] at hp
    refine ⟨by simp [hp], ?_, fun i hi => ?_⟩
    · rw [payloadRead_congr hp, payloadRead_payloadAppend_length]
    · rw [payloadRead_congr hp, payloadRead_payloadAppend_of_ne b hi]
  case cleared =>
    rw [payloadWrite_of_start hstart] at hp
    rw [payloadRead_congr hp, payloadRead_payloadClear]
  case unwritten =>
    rw [payloadWrite_of_neither hst hstart] at hp
    exact payloadRead_congr hp i

end Sys2Proof.Machine

/-! SUPPORT. The decoder and the encoder (30_encoding.md). First that the byte decode selects a row exactly where the row's
predicate holds (`selectRow_iff`); then what a stream byte and a clock edge decode to; then the statements. -/

namespace Sys2Proof.Machine

/-! ### One row for every byte -/

theorem selectData_of_sized {v : View} {b : Byte} {d : Desc} {n : Nat} (hsel : v.sel = some d)
    (hf : d.framing = .sized n) (hrem : v.remaining ≠ 0) :
    selectData v b = some (if v.remaining - 1 ≠ 0 then .dataSizedMore
      else if d.cks then .dataSizedLastCk else .dataSizedLastNock) := by
  simp only [selectData, hsel, hf, beq_iff_eq, if_neg hrem, bne_iff_ne]
  split_ifs <;> rfl

theorem selectData_of_bounded {v : View} {b : Byte} {d : Desc} (hsel : v.sel = some d) (hf : d.framing = .bounded) :
    selectData v b = some (if b ≠ v.cfg.stop then .dataBoundedMore
      else if d.cks then .dataBoundedTermCk else .dataBoundedTermNock) := by
  simp only [selectData, hsel, hf, bne_iff_ne]
  split_ifs <;> rfl

/-- Every row is selected where its predicate holds: the converse of `rowHolds_of_selectRow`. -/
theorem selectRow_of_rowHolds {v : View} {b : Byte} {r : Row} (h : rowHolds v b r) : selectRow v b = some r := by
  cases r with
  | idleSom | idleSync | eomMatch | eomMismatch =>
    obtain ⟨hst, hb⟩ := h
    simp [selectRow, hst, hb]
  | idHitSized =>
    obtain ⟨hst, d, n, hd, hf⟩ := h
    simp [selectRow, hst, hd, hf]
  | idHitBounded =>
    obtain ⟨hst, d, hd, hf⟩ := h
    simp [selectRow, hst, hd, hf]
  | idMiss =>
    obtain ⟨hst, hd⟩ := h
    simp [selectRow, hst, hd]
  | dataSizedMore =>
    obtain ⟨hst, hrem, d, n, hsel, hf⟩ := h
    simp only [selectRow, hst, selectData_of_sized hsel hf (by omega : v.remaining ≠ 0)]
    rw [if_pos (by omega)]
  | dataSizedLastCk | dataSizedLastNock =>
    obtain ⟨hst, hrem, d, n, hsel, hf, hc⟩ := h
    simp [selectRow, hst, selectData_of_sized hsel hf (by omega : v.remaining ≠ 0), hrem, hc]
  | dataBoundedMore =>
    obtain ⟨hst, hb, d, hsel, hf⟩ := h
    simp [selectRow, hst, selectData_of_bounded hsel hf, hb]
  | dataBoundedTermCk | dataBoundedTermNock =>
    obtain ⟨hst, hb, d, hsel, hf, hc⟩ := h
    simp [selectRow, hst, selectData_of_bounded hsel hf, hb, hc]
  | cksMatchSized =>
    obtain ⟨hst, hb, d, n, hsel, hf⟩ := h
    simp [selectRow, selectCheckSum, hst, hb, hsel, hf]
  | cksMatchBounded =>
    obtain ⟨hst, hb, d, hsel, hf⟩ := h
    simp [selectRow, selectCheckSum, hst, hb, hsel, hf]
  | cksMismatch =>
    obtain ⟨hst, hb⟩ := h
    simp [selectRow, selectCheckSum, hst, hb]
  | default =>
    obtain ⟨k, hst⟩ := h
    simp [selectRow, hst]

theorem selectRow_iff {v : View} {b : Byte} {r : Row} : selectRow v b = some r ↔ rowHolds v b r :=
  ⟨rowHolds_of_selectRow, selectRow_of_rowHolds⟩

/-- A coherent view selects a row for every byte (R50, D22). -/
theorem selectRow_of_coherent {v : View} (b : Byte) (hc : viewCoherent v) : ∃ r, selectRow v b = some r := by
  cases hst : v.status with
  | idle | waitEoM => simp only [selectRow, hst]; split_ifs <;> exact ⟨_, rfl⟩
  | waitId =>
    cases hd : tableRead v.cfg.table b with
    | none => exact ⟨.idMiss, selectRow_of_rowHolds ⟨hst, hd⟩⟩
    | some d =>
      cases hf : d.framing with
      | bounded => exact ⟨.idHitBounded, selectRow_of_rowHolds ⟨hst, d, hd, hf⟩⟩
      | sized n => exact ⟨.idHitSized, selectRow_of_rowHolds ⟨hst, d, n, hd, hf⟩⟩
  | waitData => exact selectRow_waitData hc hst
  | waitCheckSum =>
    by_cases hb : b = v.cks
    · obtain ⟨d, hsel⟩ := Option.isSome_iff_exists.1 (hc.2 hst)
      cases hf : d.framing with
      | bounded => exact ⟨.cksMatchBounded, selectRow_of_rowHolds ⟨hst, hb, d, hsel, hf⟩⟩
      | sized n => exact ⟨.cksMatchSized, selectRow_of_rowHolds ⟨hst, hb, d, n, hsel, hf⟩⟩
    · exact ⟨.cksMismatch, selectRow_of_rowHolds ⟨hst, hb⟩⟩
  | other k => exact ⟨.default, selectRow_of_rowHolds ⟨k, hst⟩⟩

/-- Settles O29: the rows exclude each other because the byte decode is a function. -/
theorem exactlyOneRowApplies : Obligations.ExactlyOneRowApplies := by
  refine ⟨fun v b r => selectRow_iff, fun v b r q hr hq => ?_, fun v b hc => ?_⟩
  · exact Option.some.inj ((selectRow_of_rowHolds hr).symm.trans (selectRow_of_rowHolds hq))
  · obtain ⟨r, hr⟩ := selectRow_of_coherent b hc
    exact ⟨r, rowHolds_of_selectRow hr⟩

/-! ### What a stream byte and a clock edge decode to -/

theorem decode_byte_of_rowHolds {v : View} {b : Byte} {r : Row} (h : rowHolds v b r) :
    decode v (.byte b) = .instr (r.instr b) := by
  simp [decode, decodeByte, selectRow_of_rowHolds h]

theorem decode_cycle_rst {v : View} {p : Pins} (h : p.rst = true) : decode v (.cycle p) = .instr .reset := by
  simp [decode, decodeCycle, h]

/-- A registration on the port in setup is the outcome that its request has (R61, R115). -/
theorem decode_cycle_register {v : View} {p : Pins} (hrst : p.rst = false) (hin : p.inValid = false)
    (hreg : p.regValid = true) (hs : v.started = false) :
    decode v (.cycle p) = .instr (registerInstr (registerCase v.cfg v.cfg.table p.req) p.req) := by
  simp [decode, decodeCycle, hrst, hin, hreg, hs]

/-- Both ports at once in setup are the host's breach (R61). -/
theorem decode_cycle_both {v : View} {p : Pins} (hrst : p.rst = false) (hin : p.inValid = true)
    (hreg : p.regValid = true) (hs : v.started = false) : decode v (.cycle p) = .reject .simultaneousPorts := by
  simp [decode, decodeCycle, hrst, hin, hreg, hs]

/-- With the registration port silent, or ignored in parsing, an edge is a feed or holds (R58, R61). -/
theorem decode_cycle_no_register {v : View} {p : Pins} (hrst : p.rst = false)
    (hreg : p.regValid = false ∨ v.started = true) :
    decode v (.cycle p) = if p.inValid then .instr (.feed p.inByte) else .hold := by
  rcases hreg with hreg | hreg <;> simp [decode, decodeCycle, hrst, hreg]

/-- The port carries the whole request: its framing is read back from the pins (R56, R61). -/
theorem decode_encodeRegister {v : View} (hs : v.started = false) (i : Byte) (f : Framing) (c : Bool) :
    decode v (encodeRegister i f c) = .instr (registerInstr (registerCase v.cfg v.cfg.table ⟨i, f, c⟩) ⟨i, f, c⟩) := by
  cases f <;> exact decode_cycle_register rfl rfl rfl hs

/-- Settles O30: a transition is decoded from its row's predicate, a registration from its request's outcome. -/
theorem decodeOfEncodeIsTheInstruction : Obligations.DecodeOfEncodeIsTheInstruction := by
  intro v i _ hsel
  cases i with
  | idleSom | idleSync | idHitSized | idHitBounded | idMiss | dataSizedMore | dataSizedLastCk | dataSizedLastNock
  | dataBoundedMore | dataBoundedTermCk | dataBoundedTermNock | cksMatchSized | cksMatchBounded | cksMismatch
  | eomMatch | eomMismatch | default =>
    rw [selectedIn] at hsel
    exact decode_byte_of_rowHolds hsel
  | registerOk i f c | registerSizeNotSet i f c | registerIdAliasing i f c | registerRefused i f c =>
    obtain ⟨hs, hcase⟩ := hsel
    exact (decode_encodeRegister hs i f c).trans (by rw [hcase, registerInstr])
  | feed b => exact decode_cycle_no_register rfl (.inl rfl)
  | reset => exact decode_cycle_rst rfl
  | lookup | build => rfl

/-- Settles O28. -/
theorem writtenWordsDecode : Obligations.WrittenWordsDecode := by
  refine ⟨fun v hst hstart => ?_, fun v hst hstop => ?_, fun v => ?_, fun v p => decode_cycle_rst rfl,
    fun v hs ht hlen hpay => ?_⟩
  · exact decode_byte_of_rowHolds (r := .idleSom) ⟨hst, hstart.symm⟩
  · exact decode_byte_of_rowHolds (r := .eomMatch) ⟨hst, hstop.symm⟩
  · exact decode_cycle_no_register rfl (Bool.eq_false_or_eq_true v.started).symm
  · have hcase : registerCase v.cfg v.cfg.table ⟨0x01, .sized 2, true⟩ = .ok :=
      registerCase_ok.2 ⟨rfl, by simp [lengthHeld, withinBound, hlen, hpay], by rw [ht]; rfl⟩
    exact (decode_encodeRegister hs 0x01 (.sized 2) true).trans (by rw [hcase, registerInstr])

end Sys2Proof.Machine

/-! SUPPORT. One step and the port level (30_encoding.md). First the read port beside a step and the step of a clock edge; then
the result outputs; then the codes and the table slots. -/

namespace Sys2Proof.Machine

/-! ### The read port beside a step -/

theorem withReadPort_of_no_address {i : Input} {s : State} {o : StepOut} (h : readAddress i = none) :
    withReadPort i s o = o := by
  cases o <;> simp [withReadPort, readPort, h]

@[simp] theorem withReadPort_refused (i : Input) (s : State) (r : Refusal) :
    withReadPort i s (.refused r) = .refused r := rfl

/-- Below the length the port shows the addressed byte (R60). -/
theorem readPort_of_some {i : Input} {s t : State} {a : Nat} {b : Byte} (ha : readAddress i = some a)
    (hb : payloadRead s a = some b) : readPort i s t = { t with out := { t.out with rdata := some b } } := by
  simp [readPort, ha, hb]

/-- At or beyond the length it shows a free value, which is then used up (log entry 8). -/
theorem readPort_of_none {i : Input} {s t : State} {a : Nat} (ha : readAddress i = some a)
    (hb : payloadRead s a = none) :
    readPort i s t =
      { t with out := { t.out with rdata := some (Config.freeCell t.free) }, free := t.free + 1 } := by
  simp [readPort, ha, hb]

/-! ### One step -/

theorem step_of_no_input {s : State} (h : s.input = []) : step s = .next (hold s) := by
  simp [step, h]

theorem step_of_input {s : State} {i : Input} {rest : List Input} (h : s.input = i :: rest) :
    step s = withReadPort i s (runDecoded (decode s.view i) { s with input := rest }) := by
  simp [step, h]

/-- A clock edge without a read address does what it decodes to. -/
theorem step_of_cycle {s : State} {p : Pins} {rest : List Input} {d : Decoded} (hin : s.input = .cycle p :: rest)
    (ha : p.plRaddr = none) (hd : decode s.view (.cycle p) = d) : step s = runDecoded d { s with input := rest } := by
  have ha : readAddress (.cycle p) = none := ha
  rw [step_of_input hin, withReadPort_of_no_address ha, hd]

/-- A refused act refuses the step, whatever the read port does beside it. -/
theorem step_of_refused {s : State} {i : Input} {rest : List Input} {r : Refusal} (hin : s.input = i :: rest)
    (hr : runDecoded (decode s.view i) { s with input := rest } = .refused r) : step s = .refused r := by
  rw [step_of_input hin, hr, withReadPort_refused]

/-- Settles O27. -/
theorem stepRunsDecodedInstruction : Obligations.StepRunsDecodedInstruction := by
  refine ⟨fun s i rest j hin hd => ?_, fun s hin => step_of_no_input hin⟩
  rw [step_of_input hin, hd, runDecoded]

/-- Both ports at once in setup refuse the edge, with or without a read address (R61). -/
theorem step_of_both_ports {s : State} {p : Pins} {rest : List Input} (hin : s.input = .cycle p :: rest)
    (hrst : p.rst = false) (hreg : p.regValid = true) (hval : p.inValid = true) (hs : s.started = false) :
    step s = .refused .simultaneousPorts := by
  refine step_of_refused hin ?_
  rw [decode_cycle_both hrst hval hreg hs, runDecoded, refusalOf]

/-- Settles O57: each clause is one decoding of the edge, and the read port adds nothing where no address is presented. -/
theorem clockEdgePriorities : Obligations.ClockEdgePriorities := by
  refine ⟨fun s p rest hin ha => ⟨fun hrst => ?reset, fun hrst hreg hval hs => ?both, fun hrst hval hreg => ?feed,
    fun hrst hval hreg => ?hold, fun hrst hval hreg hs => ?register⟩,
    fun s p rest hin hrst hreg hval hs => step_of_both_ports hin hrst hreg hval hs,
    fun s p rest r hin hr => step_of_refused hin hr⟩
  case reset => exact step_of_cycle hin ha (decode_cycle_rst hrst)
  case both => exact step_of_both_ports hin hrst hreg hval hs
  case feed => exact step_of_cycle hin ha ((decode_cycle_no_register hrst hreg).trans (if_pos hval))
  case hold => exact step_of_cycle hin ha ((decode_cycle_no_register hrst hreg).trans (if_neg (by simp [hval])))
  case register => exact step_of_cycle hin ha (decode_cycle_register hrst hval hreg hs)

/-- Settles O60. -/
theorem payloadPortShowsThePayload : Obligations.PayloadPortShowsThePayload := by
  intro s t p rest a hin ha ht
  have ha : readAddress (.cycle p) = some a := ha
  rw [step_of_input hin, ht, withReadPort]
  cases hb : payloadRead s a with
  | some b =>
    rw [readPort_of_some ha hb]
    exact ⟨b, t.free, rfl, fun c hc => ⟨Option.some.inj hc, rfl⟩⟩
  | none =>
    rw [readPort_of_none ha hb]
    exact ⟨_, _, rfl, nofun⟩

/-! ### The result outputs -/

theorem resPins_parsing (k n : Nat) :
    resPins (feedOutput k n .parsing) = ⟨0, 0, false, 0, 0, false, false⟩ := rfl

theorem resPins_completed (k n : Nat) (i : Byte) (p : List Byte) :
    resPins (feedOutput k n (.completed i p)) = ⟨1, 0, false, 0, i, true, false⟩ := rfl

theorem resPins_error (k n : Nat) (e : ErrKind) (o : Option Byte) :
    resPins (feedOutput k n (.error e o)) = ⟨2, errorCode e, o.isSome, o.getD 0, 0, false, true⟩ := by
  cases o <;> rfl

/-- The error kinds that report a byte report the fed one (R112). -/
theorem FeedEffect.observed {s u : State} {b : Byte} {k : ErrKind} {o : Option Byte}
    (he : FeedEffect s b (.error k o) u) :
    o = if k = .checksum ∨ k = .missingEom ∨ k = .formatError then some b else none := by
  cases he <;> rfl

/-- Settles O58: the result decides every pin, and the effect of the feed says which byte an error observes. -/
theorem resultPinsFollowTheResult : Obligations.ResultPinsFollowTheResult := by
  intro s t b ht
  obtain ⟨r, u, he, rfl⟩ := exec_feed_effect ht
  simp only [finishFeed_out, feedOutput_result, Option.some.injEq]
  cases r with
  | parsing => simp [resPins_parsing]
  | completed i p => simp [resPins_completed]
  | error k o =>
    obtain rfl := he.observed
    cases k <;> simp [resPins_error, errorCode]

/-! ### Codes and table slots -/

theorem statusCode_statusOfCode (c : BitVec 3) : statusCode (statusOfCode c) = c := by
  revert c; decide

theorem statusOfCode_statusCode (a : Status) : statusOfCode (statusCode a) = a := by
  cases a with
  | other k => revert k; decide
  | idle | waitId | waitData | waitCheckSum | waitEoM => rfl

theorem pinFraming_lengthOperand (f : Framing) : pinFraming (isSized f) (lengthOperand f) = f := by
  cases f <;> rfl

theorem slotOf_of_some {t : Table} {i : Byte} {d : Desc} (h : tableRead t i = some d) :
    slotOf t i = { valid := true, sized := isSized d.framing, cks := d.cks, length := lengthOperand d.framing } := by
  simp [slotOf, h]

theorem slotOf_of_none {t : Table} {i : Byte} (h : tableRead t i = none) :
    slotOf t i = { valid := false, sized := false, cks := false, length := 0 } := by
  simp [slotOf, h]

/-- A slot loses nothing: its address is the identifier, and its fields give the framing back (R56). -/
theorem slotDesc_slotOf (t : Table) (i : Byte) : slotDesc i (slotOf t i) = tableRead t i := by
  cases h : tableRead t i with
  | none => rw [slotOf_of_none h]; rfl
  | some d =>
    rw [slotOf_of_some h]
    simp [slotDesc, pinFraming_lengthOperand, ← tableRead_id h]

theorem slotOf_valid (t : Table) (i : Byte) : (slotOf t i).valid = (tableRead t i).isSome := by
  cases h : tableRead t i with
  | none => rw [slotOf_of_none h]; rfl
  | some d => rw [slotOf_of_some h]; rfl

/-- Settles O59. -/
theorem portCodesRoundTrip : Obligations.PortCodesRoundTrip := by
  refine ⟨statusCode_statusOfCode, statusOfCode_statusCode, ⟨rfl, rfl, rfl, rfl, rfl⟩, fun _ => rfl, rfl, rfl,
    slotDesc_slotOf, slotOf_valid, fun t i d hd => ?_⟩
  rw [slotOf_of_some hd]
  refine ⟨rfl, fun n hf => ?sized, fun hf => ?bounded⟩
  all_goals simp [hf, isSized, lengthOperand]

end Sys2Proof.Machine

/-! SUPPORT. Whole frames (30_encoding.md). First that every effect of `FeedEffect` happens, and how a run that completes is put
together, feed by feed; then a message's payload under either framing; then its closing bytes; then the four formats. -/

namespace Sys2Proof.Machine

/-! ### Every effect happens -/

theorem exec_feed_of_rowHolds {s : State} {b : Byte} {r : Row} (hv : configValid s.cfg = true)
    (hr : rowHolds s.view b r) : exec (.feed b) s = rowBody b s r :=
  exec_feed_eq_rowBody hv (selectRow_of_rowHolds hr)

/-- In `WaitData` a byte that fits is written through (R34). -/
theorem exec_feed_of_payloadFits {s u : State} {b : Byte} {r : Row} (hv : configValid s.cfg = true)
    (hfit : payloadFits s = true) (hr : rowHolds s.view b r)
    (hbody : rowBody b s r = if payloadFits s then .next (finishFeed .parsing u) else .refused .payloadOverflow) :
    exec (.feed b) s = .next (finishFeed .parsing u) := by
  rw [exec_feed_of_rowHolds hv hr, hbody, if_pos hfit]

theorem exec_feed_completes {s : State} {b : Byte} {r : Row} {d : Desc} (hv : configValid s.cfg = true)
    (hsel : s.sel = some d) (hr : rowHolds s.view b r) (hbody : rowBody b s r = completeMessage s) :
    exec (.feed b) s = .next (finishFeed (.completed d.id s.payload) (atRest s)) := by
  rw [exec_feed_of_rowHolds hv hr, hbody]
  exact completeMessage_next.2 ⟨d, hsel, rfl⟩

/-- Under a valid configuration a feed has every effect whose conditions hold: the converse of `exec_feed_effect`. -/
theorem FeedEffect.exec_feed {s u : State} {b : Byte} {r : Result} (he : FeedEffect s b r u)
    (hv : configValid s.cfg = true) : exec (.feed b) s = .next (finishFeed r u) := by
  cases he with
  | opened hst hb => exact exec_feed_of_rowHolds (r := .idleSom) hv ⟨hst, hb⟩
  | stray hst hb => exact exec_feed_of_rowHolds (r := .idleSync) hv ⟨hst, hb⟩
  | @identified d hst hd =>
    have hbody : rowBody b s .idHitSized = .next (finishFeed .parsing (selectDescriptor d s)) := by
      simp only [rowBody, hd]
    cases hf : d.framing with
    | sized n => rw [exec_feed_of_rowHolds (r := .idHitSized) hv ⟨hst, d, n, hd, hf⟩, hbody]
    | bounded => exact (exec_feed_of_rowHolds (r := .idHitBounded) hv ⟨hst, d, hd, hf⟩).trans hbody
  | unknownId hst hd => exact exec_feed_of_rowHolds (r := .idMiss) hv ⟨hst, hd⟩
  | sizedMore hst hsel hf hrem hfit =>
    exact exec_feed_of_payloadFits (r := .dataSizedMore) hv hfit ⟨hst, hrem, _, _, hsel, hf⟩ rfl
  | @sizedLast d n hst hsel hf hrem hfit =>
    cases hc : d.cks <;> simp only [afterPayload, hc]
    · exact exec_feed_of_payloadFits (r := .dataSizedLastNock) hv hfit ⟨hst, hrem, d, n, hsel, hf, hc⟩ rfl
    · exact exec_feed_of_payloadFits (r := .dataSizedLastCk) hv hfit ⟨hst, hrem, d, n, hsel, hf, hc⟩ rfl
  | boundedMore hst hsel hf hb hfit =>
    exact exec_feed_of_payloadFits (r := .dataBoundedMore) hv hfit ⟨hst, hb, _, hsel, hf⟩ rfl
  | @boundedLast d hst hsel hf hb hfit =>
    cases hc : d.cks <;> simp only [afterPayload, hc]
    · exact exec_feed_of_payloadFits (r := .dataBoundedTermNock) hv hfit ⟨hst, hb, d, hsel, hf, hc⟩ rfl
    · exact exec_feed_of_payloadFits (r := .dataBoundedTermCk) hv hfit ⟨hst, hb, d, hsel, hf, hc⟩ rfl
  | checksumSized hst hsel hf hb =>
    exact exec_feed_completes (r := .cksMatchSized) hv hsel ⟨hst, hb, _, _, hsel, hf⟩ rfl
  | checksumBounded hst hsel hf hb =>
    exact exec_feed_of_rowHolds (r := .cksMatchBounded) hv ⟨hst, hb, _, hsel, hf⟩
  | wrongChecksum hst hb => exact exec_feed_of_rowHolds (r := .cksMismatch) hv ⟨hst, hb⟩
  | endMarker hst hsel hb => exact exec_feed_completes (r := .eomMatch) hv hsel ⟨hst, hb⟩ rfl
  | wrongEndMarker hst hb => exact exec_feed_of_rowHolds (r := .eomMismatch) hv ⟨hst, hb⟩
  | illegalStatus hst => exact exec_feed_of_rowHolds (r := .default) hv ⟨_, hst⟩

/-! ### Runs that complete -/

/-- Feeding `bs` answers `Parsing` `k` times, then completes with `i` and `p`; the machine is then at rest with the payload in
the buffer and the configuration as it was. -/
def Completes (s : State) (bs : List Byte) (k : Nat) (i : Byte) (p : List Byte) : Prop :=
  ∃ (t : State) (outs : List Output), feedAll s bs = some (t, outs) ∧
    resultsOf outs = List.replicate k (some .parsing) ++ [some (.completed i p)] ∧
    t.status = .idle ∧ t.sel = none ∧ t.payload = p ∧ t.cfg = s.cfg

theorem Completes.last {s u : State} {b i : Byte} {p : List Byte} (hv : configValid s.cfg = true)
    (he : FeedEffect s b (.completed i p) u) : Completes s [b] 0 i p := by
  obtain ⟨hp, hu, -⟩ := he.completed
  refine ⟨finishFeed (.completed i p) u, [feedOutput u.free u.observers (.completed i p)], ?_, rfl, ?_⟩
  · simp only [feedAll, he.exec_feed hv, Option.map_some, finishFeed_out]
  · subst hu
    exact ⟨rfl, rfl, hp.symm, rfl⟩

theorem Completes.cons {s u : State} {b i : Byte} {bs p : List Byte} {k : Nat} (hv : configValid s.cfg = true)
    (he : FeedEffect s b .parsing u) (h : Completes (finishFeed .parsing u) bs k i p) :
    Completes s (b :: bs) (k + 1) i p := by
  obtain ⟨t, outs, hrun, hres, hst, hsel, hpay, hcfg⟩ := h
  refine ⟨t, feedOutput u.free u.observers .parsing :: outs, ?_, ?_, hst, hsel, hpay, hcfg.trans he.frame.1⟩
  · simp only [feedAll, he.exec_feed hv, hrun, Option.map_some, finishFeed_out]
  · rw [List.replicate_succ, List.cons_append, ← hres]
    rfl

/-! ### A message on its way -/

/-- In a state of the message of descriptor `d` under the valid configuration `cfg`, the payload received is `p` and the
accumulator holds its checksum where `d` asks for one (R20 (x)). -/
structure Receiving (cfg : Config) (d : Desc) (p : List Byte) (s : State) : Prop where
  valid : configValid s.cfg = true
  config : s.cfg = cfg
  selected : s.sel = some d
  payload : s.payload = p
  accumulator : s.cks = if d.cks then checksum p else 0

/-- Neither the status nor the outputs are part of what was received. -/
theorem Receiving.with_status {cfg : Config} {d : Desc} {p : List Byte} {s : State} (h : Receiving cfg d p s)
    (st : Status) : Receiving cfg d p (finishFeed .parsing { s with status := st }) :=
  ⟨h.valid, h.config, h.selected, h.payload, h.accumulator⟩

/-- One appended byte (R77). -/
theorem Receiving.append {cfg : Config} {d : Desc} {p : List Byte} {s : State} (h : Receiving cfg d p s) (b : Byte)
    (st : Status) (rem : Nat) :
    Receiving cfg d (p ++ [b]) (finishFeed .parsing { accumulate b s with status := st, remaining := rem }) where
  valid := h.valid
  config := h.config
  selected := h.selected
  payload := by simp [h.payload]
  accumulator := by
    have hacc := h.accumulator
    simp only [finishFeed_cks, accumulate_cks, selChecks_of_sel h.selected, checksum_append_singleton]
    cases hc : d.cks <;> simp [hacc, hc]

theorem withinBound_mono {bound : Option Nat} {m n : Nat} (hmn : m ≤ n) (h : withinBound bound n = true) :
    withinBound bound m = true := by
  cases bound with
  | none => rfl
  | some k => simp only [withinBound, decide_eq_true_eq] at h ⊢; omega

theorem Receiving.fits {cfg : Config} {d : Desc} {p : List Byte} {s : State} {n : Nat}
    (h : Receiving cfg d p s) (hn : p.length + 1 ≤ n) (hroom : withinBound cfg.payloadMax n = true) :
    payloadFits s = true := by
  rw [payloadFits, h.config, h.payload]
  exact withinBound_mono hn hroom

/-- A `Sized` payload is received whatever its bytes are: where the bytes `tail` complete a message that has received all of
it, they do so after the rest of the payload (R78 to R80). -/
theorem Receiving.completes_sized {cfg : Config} {d : Desc} {n k : Nat} {p ds tail q : List Byte} {s : State}
    (h : Receiving cfg d p s) (hst : s.status = .waitData) (hrem : s.remaining = ds.length) (hne : ds ≠ [])
    (hf : d.framing = .sized n) (hroom : withinBound cfg.payloadMax (p ++ ds).length = true)
    (hclose : ∀ t, Receiving cfg d (p ++ ds) t → t.status = afterPayload d → Completes t tail k d.id q) :
    Completes s (ds ++ tail) (k + ds.length) d.id q := by
  induction ds generalizing s p with
  | nil => exact absurd rfl hne
  | cons b ds ih =>
    have hfit : payloadFits s = true := h.fits (by simp) hroom
    cases ds with
    | nil => exact .cons h.valid (.sizedLast hst h.selected hf hrem hfit) (hclose _ (h.append b _ _) rfl)
    | cons c ds =>
      have hrem' : 2 ≤ s.remaining := by simp [hrem]
      refine .cons h.valid (.sizedMore hst h.selected hf hrem' hfit)
        (ih (h.append b _ _) hst (by simp [countdown, hrem]) (by simp) ?_ ?_)
      · simpa using hroom
      · simpa using hclose

/-- A `Bounded` payload is received up to its terminator, which belongs to it (R81 to R83, C2). -/
theorem Receiving.completes_bounded {cfg : Config} {d : Desc} {k : Nat} {p ds tail q : List Byte} {s : State}
    (h : Receiving cfg d p s) (hst : s.status = .waitData) (hf : d.framing = .bounded) (hstop : cfg.stop ∉ ds)
    (hroom : withinBound cfg.payloadMax ((p ++ ds).length + 1) = true)
    (hclose : ∀ t, Receiving cfg d (p ++ ds ++ [cfg.stop]) t → t.status = afterPayload d → Completes t tail k d.id q) :
    Completes s (ds ++ cfg.stop :: tail) (k + 1 + ds.length) d.id q := by
  induction ds generalizing s p with
  | nil =>
    have hfit : payloadFits s = true := h.fits (by simp) hroom
    rw [List.append_nil] at hclose
    exact .cons h.valid (.boundedLast hst h.selected hf (by rw [h.config]) hfit) (hclose _ (h.append _ _ _) rfl)
  | cons b ds ih =>
    obtain ⟨hb, hds⟩ := not_or.1 (mt List.mem_cons.2 hstop)
    have hb' : b ≠ s.cfg.stop := h.config ▸ Ne.symm hb
    have happ : Receiving cfg d (p ++ [b]) (finishFeed .parsing (accumulate b s)) := h.append b _ _
    have hfit : payloadFits s = true := h.fits (by simp) hroom
    exact .cons h.valid (.boundedMore hst h.selected hf hb' hfit)
      (ih happ hst hds (by simpa using hroom) (by simpa using hclose))

/-! ### The closing bytes -/

/-- The end marker completes a message in `WaitEoM` (R87). -/
theorem Receiving.completes_stop {cfg : Config} {d : Desc} {p : List Byte} {s : State} (h : Receiving cfg d p s)
    (hst : s.status = .waitEoM) : Completes s [cfg.stop] 0 d.id p := by
  obtain ⟨hv, rfl, hsel, rfl, -⟩ := h
  exact .last hv (.endMarker hst hsel rfl)

/-- The checksum completes a `Sized` message (R84). -/
theorem Receiving.completes_checksum_sized {cfg : Config} {d : Desc} {n : Nat} {p : List Byte} {s : State}
    (h : Receiving cfg d p s) (hst : s.status = .waitCheckSum) (hf : d.framing = .sized n) (hc : d.cks = true) :
    Completes s [checksum p] 0 d.id p := by
  obtain ⟨hv, -, hsel, rfl, hacc⟩ := h
  exact .last hv (.checksumSized hst hsel hf (by simp [hacc, hc]))

/-- A `Bounded` message completes on the end marker after its checksum (R85, R87). -/
theorem Receiving.completes_checksum_bounded {cfg : Config} {d : Desc} {p : List Byte} {s : State}
    (h : Receiving cfg d p s) (hst : s.status = .waitCheckSum) (hf : d.framing = .bounded) (hc : d.cks = true) :
    Completes s [checksum p, cfg.stop] 1 d.id p :=
  .cons h.valid (.checksumBounded hst h.selected hf (by simp [h.accumulator, hc]))
    ((h.with_status .waitEoM).completes_stop rfl)

/-! ### The four formats -/

/-- A message opens with the start marker and a registered identifier (R72, R74, R75). -/
theorem completes_of_opened {s : State} {i : Byte} {d : Desc} {bs q : List Byte} {k : Nat}
    (hv : configValid s.cfg = true) (hst : s.status = .idle) (hd : tableRead s.cfg.table i = some d)
    (hbody : ∀ t, Receiving s.cfg d [] t → t.status = .waitData → t.remaining = lengthOperand d.framing →
      Completes t bs k i q) :
    Completes s (s.cfg.start :: i :: bs) (k + 2) i q :=
  .cons hv (.opened hst rfl) (.cons hv (.identified rfl hd)
    (hbody _ ⟨hv, rfl, rfl, rfl, by simp⟩ rfl rfl))

/-- A `Sized` frame, up to how it is closed (R45, R46). A registered length is positive, so the payload has a last byte. -/
theorem completes_sized_frame {s : State} {d : Desc} {ds tail : List Byte} (hv : configValid s.cfg = true)
    (hst : s.status = .idle) (hd : tableRead s.cfg.table d.id = some d) (hf : d.framing = .sized ds.length)
    (hroom : roomFor s ds.length)
    (hclose : ∀ t, Receiving s.cfg d ds t → t.status = afterPayload d → Completes t tail 0 d.id ds) :
    Completes s (s.cfg.start :: d.id :: (ds ++ tail)) (ds.length + 2) d.id ds := by
  have hne : ds ≠ [] := by
    rintro rfl
    simpa [hf, Framing.unset] using unset_of_mem hv (tableRead_mem hd)
  refine completes_of_opened hv hst hd fun t ht hdata hrem => ?_
  rw [← Nat.zero_add ds.length]
  exact ht.completes_sized hdata (by rw [hrem, hf, lengthOperand]) hne hf hroom hclose

/-- A `Bounded` frame, up to how it is closed (R47, R48). -/
theorem completes_bounded_frame {s : State} {d : Desc} {ds tail : List Byte} {k : Nat} (hv : configValid s.cfg = true)
    (hst : s.status = .idle) (hd : tableRead s.cfg.table d.id = some d) (hf : d.framing = .bounded)
    (hstop : s.cfg.stop ∉ ds) (hroom : roomFor s (ds.length + 1))
    (hclose : ∀ t, Receiving s.cfg d (ds ++ [s.cfg.stop]) t → t.status = afterPayload d →
      Completes t tail k d.id (ds ++ [s.cfg.stop])) :
    Completes s (s.cfg.start :: d.id :: (ds ++ s.cfg.stop :: tail)) (ds.length + (k + 3)) d.id (ds ++ [s.cfg.stop]) := by
  rw [show ds.length + (k + 3) = k + 1 + ds.length + 2 by omega]
  exact completes_of_opened hv hst hd fun t ht hdata _ => ht.completes_bounded hdata hf hstop hroom hclose

/-- Settles O42: the accumulator after the payload is the checksum that closes the frame. -/
theorem frameSizedChecksummedCompletes : Obligations.FrameSizedChecksummedCompletes := by
  rintro s i n ds hv hst hd rfl hroom
  rw [List.append_assoc]
  exact completes_sized_frame (d := ⟨i, .sized ds.length, true⟩) hv hst hd rfl hroom fun t ht hclosed =>
    ht.completes_checksum_sized hclosed rfl rfl

/-- Settles O43: the countdown, and no marker, ends the payload. -/
theorem frameSizedPlainCompletes : Obligations.FrameSizedPlainCompletes := by
  rintro s i n ds hv hst hd rfl hroom
  rw [List.append_assoc]
  exact completes_sized_frame (d := ⟨i, .sized ds.length, false⟩) hv hst hd rfl hroom fun t ht hclosed =>
    ht.completes_stop hclosed

/-- Settles O44: the first end marker ends the payload, the second one the frame (C1). -/
theorem frameBoundedPlainCompletes : Obligations.FrameBoundedPlainCompletes := by
  intro s i ds hv hst hd hstop hroom
  rw [List.append_assoc]
  exact completes_bounded_frame (d := ⟨i, .bounded, false⟩) hv hst hd rfl hstop hroom fun t ht hclosed =>
    ht.completes_stop hclosed

/-- Settles O45: the accumulator covers the terminator, because it was appended like a data byte (C2). -/
theorem frameBoundedChecksummedCompletes : Obligations.FrameBoundedChecksummedCompletes := by
  intro s i ds hv hst hd hstop hroom
  rw [List.append_assoc]
  exact completes_bounded_frame (d := ⟨i, .bounded, true⟩) hv hst hd rfl hstop hroom fun t ht hclosed =>
    ht.completes_checksum_bounded hclosed rfl rfl

end Sys2Proof.Machine

/-! SUPPORT. The descriptor table (40_descriptor_table.md). First which lengths are set and can be held; then
`REGISTER` and `LOOKUP` with their statements; then the construction of `BUILD`, request by request, how it ends, and its
statement. -/

namespace Sys2Proof.Machine

/-! ### Lengths that are set and held -/

theorem unset_iff {f : Framing} : f.unset = true ↔ f = .sized 0 := by
  cases f <;> simp [Framing.unset]

theorem withinBound_iff {bound : Option Nat} {n : Nat} :
    withinBound bound n = true ↔ ∀ m, bound = some m → n ≤ m := by
  cases bound <;> simp [withinBound]

theorem lengthHeld_sized_iff {cfg : Config} {n : Nat} :
    lengthHeld cfg (.sized n) = true ↔
      (∀ m, cfg.lenMax = some m → n ≤ m) ∧ ∀ m, cfg.payloadMax = some m → n ≤ m := by
  rw [lengthHeld, Bool.and_eq_true, withinBound_iff, withinBound_iff]

/-- The framings that neither R66 nor R67 turns away: a length, if there is one, is positive and within the capacities. -/
theorem set_and_held_iff {cfg : Config} {f : Framing} :
    (f.unset = false ∧ lengthHeld cfg f = true) ↔
      ∀ n, f = .sized n → 1 ≤ n ∧ (∀ m, cfg.lenMax = some m → n ≤ m) ∧ ∀ m, cfg.payloadMax = some m → n ≤ m := by
  cases f with
  | bounded => simp [Framing.unset, lengthHeld]
  | sized n =>
    rw [lengthHeld_sized_iff]
    simp [Framing.unset, Nat.one_le_iff_ne_zero]

/-- A length beyond either capacity cannot be held (R67). -/
theorem lengthHeld_sized_eq_false {cfg : Config} {n m : Nat} (hm : cfg.lenMax = some m ∨ cfg.payloadMax = some m)
    (hlong : m < n) : lengthHeld cfg (.sized n) = false := by
  rw [← Bool.not_eq_true, lengthHeld_sized_iff]
  rintro ⟨hlen, hpay⟩
  rcases hm with hm | hm
  · exact absurd (hlen m hm) (by omega)
  · exact absurd (hpay m hm) (by omega)

/-! ### Registration and lookup -/

/-- In setup a registration row runs for a request of its outcome (R37, R115). -/
theorem registration_of_case {s : State} {r : Req} {c : RegCase} (hs : s.started = false)
    (hc : registerCase s.cfg s.cfg.table r = c) (o : StepOut) : registration c r s o = o := by
  simp [registration, inSetup, hs, hc]

theorem configValid_iff {cfg : Config} :
    configValid cfg = true ↔ tableSorted cfg.table = true ∧ ∀ d ∈ cfg.table, d.framing.unset = false := by
  simp [configValid]

/-- A new descriptor with its length set keeps a configuration valid (R64, R65). -/
theorem configValid_tableInsert {cfg : Config} {d : Desc} (hv : configValid cfg = true)
    (hn : tableRead cfg.table d.id = none) (hset : d.framing.unset = false) :
    configValid { cfg with table := tableInsert d cfg.table } = true := by
  obtain ⟨hsorted, hall⟩ := configValid_iff.1 hv
  refine configValid_iff.2 ⟨tableSorted_tableInsert hsorted hn, fun e he => ?_⟩
  rcases mem_tableInsert.1 he with rfl | he
  · exact hset
  · exact hall e he

/-- Settles O20. -/
theorem registerOkInsertsDescriptor : Obligations.RegisterOkInsertsDescriptor := by
  intro s i f c hs hf hn
  obtain ⟨hset, hheld⟩ := set_and_held_iff.2 hf
  have hread := tableRead_tableInsert (d := ⟨i, f, c⟩) hn
  refine ⟨_, registration_of_case hs (registerCase_ok.2 ⟨hset, hheld, hn⟩) _, rfl, ?_, fun j hj => ?_,
    fun hv => configValid_tableInsert hv hn hset, rfl⟩
  · exact (hread i).trans (if_pos rfl)
  · exact (hread j).trans (if_neg hj)

/-- Settles O21: the unset length decides alone, before the identifier is looked up (D19). -/
theorem registerUnsetLengthFails : Obligations.RegisterUnsetLengthFails :=
  fun _ _ _ hs => registration_of_case hs (registerCase_sizeNotSet.2 rfl) _

/-- Settles O22. -/
theorem registerDuplicateFails : Obligations.RegisterDuplicateFails := by
  intro s i f c d hs hf hd
  obtain ⟨hset, hheld⟩ := set_and_held_iff.2 hf
  exact registration_of_case hs (registerCase_idAliasing.2 ⟨hset, hheld, Option.isSome_of_eq_some hd⟩) _

/-- Settles O23. -/
theorem registerTooLongIsRefused : Obligations.RegisterTooLongIsRefused := by
  intro s i n c m hs hn hm hlong
  have hset : (Framing.sized n).unset = false := by simpa [Framing.unset] using hn
  exact registration_of_case hs (registerCase_tooLong.2 ⟨hset, lengthHeld_sized_eq_false hm hlong⟩) _

/-- Settles O24. -/
theorem lookupAnswersTheTable : Obligations.LookupAnswersTheTable :=
  fun _ _ => ⟨rfl, fun _ hd => ⟨tableRead_id hd, tableRead_mem hd⟩, tableRead_none.1⟩

/-! ### The construction of a table -/

theorem length_tableInsert (d : Desc) (t : Table) : (tableInsert d t).length = t.length + 1 := by
  induction t with
  | nil => rfl
  | cons e es ih =>
    rw [tableInsert]
    split <;> simp [ih]

/-- Inserting a new descriptor leaves every other one to be found (R65). -/
theorem tableRead_tableInsert_of_some {d e : Desc} {t : Table} {i : Byte} (hn : tableRead t d.id = none)
    (he : tableRead t i = some e) : tableRead (tableInsert d t) i = some e := by
  have hi : i ≠ d.id := by
    rintro rfl
    simp [hn] at he
  rw [tableRead_tableInsert hn, if_neg hi, he]

/-- The construction yields a table where the first request registers and the rest builds on that (R70). -/
theorem buildFrom_cons_ok {cfg : Config} {t u : Table} {r : Req} {rs : List Req} :
    buildFrom cfg t (r :: rs) = .done (.ok u) ↔
      registerCase cfg t r = .ok ∧ buildFrom cfg (tableInsert ⟨r.id, r.framing, r.cks⟩ t) rs = .done (.ok u) := by
  rw [buildFrom]
  cases registerCase cfg t r <;> simp

/-- A built table has one more entry for every request. -/
theorem length_buildFrom {cfg : Config} {rs : List Req} {t u : Table} (hu : buildFrom cfg t rs = .done (.ok u)) :
    u.length = t.length + rs.length := by
  induction rs generalizing t with
  | nil => cases hu; rfl
  | cons r rs ih =>
    rw [ih (buildFrom_cons_ok.1 hu).2, length_tableInsert, List.length_cons]
    omega

/-- The construction keeps every descriptor it starts from (R64). -/
theorem tableRead_buildFrom_of_some {cfg : Config} {rs : List Req} {t u : Table} {i : Byte} {d : Desc}
    (hu : buildFrom cfg t rs = .done (.ok u)) (hd : tableRead t i = some d) : tableRead u i = some d := by
  induction rs generalizing t with
  | nil => cases hu; exact hd
  | cons r rs ih =>
    obtain ⟨hr, hrest⟩ := buildFrom_cons_ok.1 hu
    obtain ⟨-, -, hn⟩ := registerCase_ok.1 hr
    exact ih hrest (tableRead_tableInsert_of_some hn hd)

/-- A built table holds every request (R70). -/
theorem tableRead_buildFrom_of_mem {cfg : Config} {rs : List Req} {t u : Table} {q : Req}
    (hu : buildFrom cfg t rs = .done (.ok u)) (hq : q ∈ rs) : tableRead u q.id = some ⟨q.id, q.framing, q.cks⟩ := by
  induction rs generalizing t with
  | nil => cases hq
  | cons r rs ih =>
    obtain ⟨hr, hrest⟩ := buildFrom_cons_ok.1 hu
    rcases List.mem_cons.1 hq with rfl | hq
    · obtain ⟨-, -, hn⟩ := registerCase_ok.1 hr
      exact tableRead_buildFrom_of_some hrest ((tableRead_tableInsert hn _).trans (if_pos rfl))
    · exact ih hrest hq

/-! ### How a construction ends -/

/-- The outcome of `REGISTER` that returns a failure (R66, R68). -/
def failureCase : CfgErr → RegCase
  | .sizeNotSet => .sizeNotSet
  | .idAliasing => .idAliasing

/-- The first failure aborts the construction, whatever stands after it (R70). -/
theorem buildFrom_cons_of_failure {cfg : Config} {t : Table} {r : Req} {e : CfgErr}
    (hr : registerCase cfg t r = failureCase e) (rs : List Req) : buildFrom cfg t (r :: rs) = .done (.err e) := by
  rw [buildFrom, hr]
  cases e <;> rfl

/-- A request whose length can be held registers or fails (R65, R66, R68). -/
theorem registerCase_of_held {cfg : Config} {t : Table} {r : Req} (hheld : lengthHeld cfg r.framing = true) :
    registerCase cfg t r = .ok ∨ ∃ e, registerCase cfg t r = failureCase e := by
  cases hc : registerCase cfg t r with
  | ok => exact .inl rfl
  | sizeNotSet => exact .inr ⟨.sizeNotSet, rfl⟩
  | idAliasing => exact .inr ⟨.idAliasing, rfl⟩
  | tooLong =>
    obtain ⟨-, hlong⟩ := registerCase_tooLong.1 hc
    simp [hheld] at hlong

/-- What a failing request is (R66, R68). -/
theorem failureCase_request {cfg : Config} {t : Table} {r : Req} {e : CfgErr}
    (hr : registerCase cfg t r = failureCase e) :
    (e = .sizeNotSet ∧ r.framing = .sized 0) ∨
      (e = .idAliasing ∧ r.framing ≠ .sized 0 ∧ (tableRead t r.id).isSome = true) := by
  cases e with
  | sizeNotSet => exact .inl ⟨rfl, unset_iff.1 (registerCase_sizeNotSet.1 hr)⟩
  | idAliasing =>
    obtain ⟨hset, -, hsome⟩ := registerCase_idAliasing.1 hr
    exact .inr ⟨rfl, fun hf => by simp [unset_iff.2 hf] at hset, hsome⟩

/-- The construction yields a table, or it registers its first requests and meets one that does not register (R70). -/
theorem buildFrom_ends (cfg : Config) (rs : List Req) (t : Table) :
    (∃ u, buildFrom cfg t rs = .done (.ok u)) ∨
      ∃ (pre post : List Req) (q : Req) (u : Table), rs = pre ++ q :: post ∧
        buildFrom cfg t pre = .done (.ok u) ∧ registerCase cfg u q ≠ .ok := by
  induction rs generalizing t with
  | nil => exact .inl ⟨t, rfl⟩
  | cons r rs ih =>
    by_cases hr : registerCase cfg t r = .ok
    · rcases ih (tableInsert ⟨r.id, r.framing, r.cks⟩ t) with ⟨u, hu⟩ | ⟨pre, post, q, u, rfl, hpre, hq⟩
      · exact .inl ⟨u, buildFrom_cons_ok.2 ⟨hr, hu⟩⟩
      · exact .inr ⟨r :: pre, post, q, u, rfl, buildFrom_cons_ok.2 ⟨hr, hpre⟩, hq⟩
    · exact .inr ⟨[], rs, r, t, rfl, rfl, hr⟩

/-- A table with a descriptor in it is kept by a build (R64, log entry 17). -/
theorem installTable_of_ne_nil {old : Table} (h : old ≠ []) (new : Table) : installTable old new = old := by
  cases old with
  | nil => exact absurd rfl h
  | cons e es => rfl

/-- Settles O25: the construction ends with a table, or at a first request that does not register; that one can be held, so it
fails. -/
theorem buildCompletes : Obligations.BuildCompletes := by
  intro s rs hs hheld
  rcases buildFrom_ends s.cfg rs [] with ⟨u, hu⟩ | ⟨pre, post, q, u, rfl, hpre, hq⟩
  · have hgood : TableGood s.cfg u := (tableGood_nil s.cfg).buildFrom hu
    refine ⟨_, .ok u, execBuild_next.2 ⟨hs, .inl ⟨u, hu, rfl⟩⟩, rfl, rfl, fun i d => tableRead_installTable,
      hgood.configValid, ?_, fun hnil => ?_, fun hne => installTable_of_ne_nil hne u,
      fun q hq => tableRead_buildFrom_of_mem hu hq⟩
    · simpa using length_buildFrom hu
    · simp [hnil, installTable]
  · obtain ⟨e, he⟩ := (registerCase_of_held (hheld pre post q u rfl hpre)).resolve_left hq
    have hb : buildFrom s.cfg [] (pre ++ q :: post) = .done (.err e) := by
      rw [buildFrom_append hpre, buildFrom_cons_of_failure he]
    exact ⟨_, .err e, execBuild_next.2 ⟨hs, .inr ⟨e, hb, rfl⟩⟩, rfl, rfl, fun i d hd => hd, rfl,
      pre, post, q, u, rfl, hpre, failureCase_request he⟩

end Sys2Proof.Machine

/-! SUPPORT. The feed transitions (41_feed_transitions.md). First when a feed answers, and runs of stray bytes; then that a
row run as an instruction has the effect of the feed that selects it (`FeedEffect.exec_rowInstr`), which gives T1 to T17. -/

namespace Sys2Proof.Machine

/-! ### When a feed answers -/

/-- A byte fits exactly where a finite buffer is not full (R34). -/
theorem payloadFits_iff {s : State} :
    payloadFits s = true ↔ ∀ m, s.cfg.payloadMax = some m → s.payload.length < m :=
  withinBound_iff

/-- A row whose predicate holds has an effect, where the buffer has room in `WaitData` (R34) and a descriptor is selected in
`WaitEoM` (U6): the converse of `execRow_effect`. -/
theorem exists_feedEffect_of_rowHolds {s : State} {b : Byte} {row : Row} (hrow : rowHolds s.view b row)
    (heom : s.status = .waitEoM → s.sel.isSome = true) (hfit : s.status = .waitData → payloadFits s = true) :
    ∃ r u, FeedEffect s b r u := by
  cases row with
  | idleSom => exact ⟨_, _, .opened hrow.1 hrow.2⟩
  | idleSync => exact ⟨_, _, .stray hrow.1 hrow.2⟩
  | idHitSized =>
    obtain ⟨hst, d, n, hd, -⟩ := hrow
    exact ⟨_, _, .identified hst hd⟩
  | idHitBounded =>
    obtain ⟨hst, d, hd, -⟩ := hrow
    exact ⟨_, _, .identified hst hd⟩
  | idMiss => exact ⟨_, _, .unknownId hrow.1 hrow.2⟩
  | dataSizedMore =>
    obtain ⟨hst, hrem, d, n, hsel, hf⟩ := hrow
    exact ⟨_, _, .sizedMore hst hsel hf hrem (hfit hst)⟩
  | dataSizedLastCk | dataSizedLastNock =>
    obtain ⟨hst, hrem, d, n, hsel, hf, -⟩ := hrow
    exact ⟨_, _, .sizedLast hst hsel hf hrem (hfit hst)⟩
  | dataBoundedMore =>
    obtain ⟨hst, hb, d, hsel, hf⟩ := hrow
    exact ⟨_, _, .boundedMore hst hsel hf hb (hfit hst)⟩
  | dataBoundedTermCk | dataBoundedTermNock =>
    obtain ⟨hst, hb, d, hsel, hf, -⟩ := hrow
    exact ⟨_, _, .boundedLast hst hsel hf hb (hfit hst)⟩
  | cksMatchSized =>
    obtain ⟨hst, hb, d, n, hsel, hf⟩ := hrow
    exact ⟨_, _, .checksumSized hst hsel hf hb⟩
  | cksMatchBounded =>
    obtain ⟨hst, hb, d, hsel, hf⟩ := hrow
    exact ⟨_, _, .checksumBounded hst hsel hf hb⟩
  | cksMismatch => exact ⟨_, _, .wrongChecksum hrow.1 hrow.2⟩
  | eomMatch =>
    obtain ⟨d, hsel⟩ := Option.isSome_iff_exists.1 (heom hrow.1)
    exact ⟨_, _, .endMarker hrow.1 hsel hrow.2⟩
  | eomMismatch => exact ⟨_, _, .wrongEndMarker hrow.1 hrow.2⟩
  | default =>
    obtain ⟨k, hst⟩ := hrow
    exact ⟨_, _, .illegalStatus hst⟩

/-- Settles O19: a coherent state selects a row, the row has an effect, and a feed with that effect ends with its result. -/
theorem feedCompletes : Obligations.FeedCompletes := by
  intro s b hv hc heom hroom
  obtain ⟨row, hrow⟩ := selectRow_of_coherent b hc
  have hfit (hst : s.status = .waitData) : payloadFits s = true := payloadFits_iff.2 (hroom hst)
  obtain ⟨r, u, he⟩ := exists_feedEffect_of_rowHolds (rowHolds_of_selectRow hrow) heom hfit
  obtain ⟨-, hobs, -, hfree⟩ := he.frame
  exact ⟨finishFeed r u, r, he.exec_feed hv, by rw [finishFeed_out, hobs, hfree], rfl⟩

/-- Settles O18. -/
theorem feedRunsTheSelectedTransition : Obligations.FeedRunsTheSelectedTransition := by
  intro s b r hr
  rw [exec_feed_of_selectRow hr, exec_rowInstr]

/-! ### Stray bytes -/

/-- Settles O51, by induction on the bytes: a stray byte leaves a state in `Idle` under the same configuration, from which the
rest is fed. -/
theorem strayBytesKeepThePayloadWindow : Obligations.StrayBytesKeepThePayloadWindow := by
  intro s bs hv hst hnot
  induction bs generalizing s with
  | nil => exact ⟨s, [], rfl, rfl, hst, rfl, rfl, rfl, rfl, rfl⟩
  | cons b bs ih =>
    obtain ⟨hb, hbs⟩ := List.ne_and_not_mem_of_not_mem_cons hnot
    have hfeed := (FeedEffect.stray hst hb.symm).exec_feed hv
    obtain ⟨t, outs, hrun, hres, hkept⟩ := ih (finishFeed (.error .syncError none) s) hv hst hbs
    refine ⟨t, feedOutput s.free s.observers (.error .syncError none) :: outs, ?_, ?_, hkept⟩
    · simp only [feedAll, hfeed, hrun, Option.map_some, finishFeed_out]
    · rw [List.length_cons, List.replicate_succ, ← hres]
      rfl

/-! ### A row as an instruction -/

/-- A row as an instruction does what the feed that selects it does. -/
theorem FeedEffect.exec_rowInstr {s u : State} {b : Byte} {r : Result} {row : Row} (he : FeedEffect s b r u)
    (hv : configValid s.cfg = true) (hrow : rowHolds s.view b row) :
    exec (row.instr b) s = .next (finishFeed r u) := by
  rw [← feedRunsTheSelectedTransition s b row (selectRow_of_rowHolds hrow), he.exec_feed hv]

/-- The common part of the `WaitData` rows under a descriptor with or without checksum (R77). -/
theorem accumulate_of_sel {s : State} {b : Byte} {d : Desc} (hsel : s.sel = some d) :
    accumulate b s = { s with
      payload := s.payload ++ [b], cks := if d.cks = true then s.cks + b else s.cks } := by
  rw [accumulate, selChecks_of_sel hsel]
  rfl

/-! ### From `Idle` and `WaitId` (T1 to T5) -/

/-- Settles O1. -/
theorem startMarkerOpensMessage : Obligations.StartMarkerOpensMessage :=
  fun _ _ hv hst hb => (FeedEffect.opened hst hb).exec_rowInstr (row := .idleSom) hv ⟨hst, hb⟩

/-- Settles O2. -/
theorem strayByteReportsSyncError : Obligations.StrayByteReportsSyncError :=
  fun _ _ hv hst hb => (FeedEffect.stray hst hb).exec_rowInstr (row := .idleSync) hv ⟨hst, hb⟩

/-- Settles O3: the countdown loaded is the length operand of `Sized`. -/
theorem sizedIdentifierLoadsCountdown : Obligations.SizedIdentifierLoadsCountdown := by
  intro s b d n hv hst hd hf
  have h := (FeedEffect.identified hst hd).exec_rowInstr (row := .idHitSized) hv ⟨hst, d, n, hd, hf⟩
  rw [selectDescriptor, hf] at h
  exact h

/-- Settles O4: the length operand of `Bounded` is 0. -/
theorem boundedIdentifierClearsCountdown : Obligations.BoundedIdentifierClearsCountdown := by
  intro s b d hv hst hd hf
  have h := (FeedEffect.identified hst hd).exec_rowInstr (row := .idHitBounded) hv ⟨hst, d, hd, hf⟩
  rw [selectDescriptor, hf] at h
  exact h

/-- Settles O5. -/
theorem unknownIdentifierReturnsToIdle : Obligations.UnknownIdentifierReturnsToIdle :=
  fun _ _ hv hst hd => (FeedEffect.unknownId hst hd).exec_rowInstr (row := .idMiss) hv ⟨hst, hd⟩

/-! ### From `WaitData` (T6 to T11) -/

/-- Settles O6. -/
theorem sizedByteCountsDown : Obligations.SizedByteCountsDown := by
  intro s b d n hv hst hsel hf hrem hroom
  have h := (FeedEffect.sizedMore (b := b) hst hsel hf hrem (payloadFits_iff.2 hroom)).exec_rowInstr
    (row := .dataSizedMore) hv ⟨hst, hrem, d, n, hsel, hf⟩
  rw [accumulate_of_sel hsel] at h
  exact h

/-- Settles O7: the countdown goes from 1 to 0, and the checksum is awaited. -/
theorem lastSizedByteAwaitsChecksum : Obligations.LastSizedByteAwaitsChecksum := by
  intro s b d n hv hst hsel hf hc hrem hroom
  have h := (FeedEffect.sizedLast (b := b) hst hsel hf hrem (payloadFits_iff.2 hroom)).exec_rowInstr
    (row := .dataSizedLastCk) hv ⟨hst, hrem, d, n, hsel, hf, hc⟩
  rw [accumulate_of_sel hsel, afterPayload, hc, hrem] at h
  exact h

/-- Settles O8: without a checksum the accumulator stays and the end marker is awaited. -/
theorem lastSizedByteAwaitsEndMarker : Obligations.LastSizedByteAwaitsEndMarker := by
  intro s b d n hv hst hsel hf hc hrem hroom
  have h := (FeedEffect.sizedLast (b := b) hst hsel hf hrem (payloadFits_iff.2 hroom)).exec_rowInstr
    (row := .dataSizedLastNock) hv ⟨hst, hrem, d, n, hsel, hf, hc⟩
  rw [accumulate_of_sel hsel, afterPayload, hc, hrem] at h
  exact h

/-- Settles O9. -/
theorem boundedByteIsAppended : Obligations.BoundedByteIsAppended := by
  intro s b d hv hst hsel hf hb hroom
  have h := (FeedEffect.boundedMore hst hsel hf hb (payloadFits_iff.2 hroom)).exec_rowInstr
    (row := .dataBoundedMore) hv ⟨hst, hb, d, hsel, hf⟩
  rw [accumulate_of_sel hsel] at h
  exact h

/-- Settles O10: the terminator is summed like any byte (C2), and the checksum is awaited. -/
theorem terminatorAwaitsChecksum : Obligations.TerminatorAwaitsChecksum := by
  intro s b d hv hst hsel hf hc hb hroom
  have h := (FeedEffect.boundedLast hst hsel hf hb (payloadFits_iff.2 hroom)).exec_rowInstr
    (row := .dataBoundedTermCk) hv ⟨hst, hb, d, hsel, hf, hc⟩
  rw [accumulate_of_sel hsel, afterPayload, hc] at h
  exact h

/-- Settles O11: without a checksum a second end marker is awaited (C1). -/
theorem terminatorAwaitsEndMarker : Obligations.TerminatorAwaitsEndMarker := by
  intro s b d hv hst hsel hf hc hb hroom
  have h := (FeedEffect.boundedLast hst hsel hf hb (payloadFits_iff.2 hroom)).exec_rowInstr
    (row := .dataBoundedTermNock) hv ⟨hst, hb, d, hsel, hf, hc⟩
  rw [accumulate_of_sel hsel, afterPayload, hc] at h
  exact h

/-! ### From `WaitCheckSum` and `WaitEoM` (T12 to T16), and out of an illegal status (T17) -/

/-- Settles O12. -/
theorem sizedChecksumMatchCompletes : Obligations.SizedChecksumMatchCompletes :=
  fun _ _ d n hv hst hsel hf hb =>
    (FeedEffect.checksumSized hst hsel hf hb).exec_rowInstr (row := .cksMatchSized) hv ⟨hst, hb, d, n, hsel, hf⟩

/-- Settles O13. -/
theorem boundedChecksumMatchAwaitsEndMarker : Obligations.BoundedChecksumMatchAwaitsEndMarker :=
  fun _ _ d hv hst hsel hf hb =>
    (FeedEffect.checksumBounded hst hsel hf hb).exec_rowInstr (row := .cksMatchBounded) hv ⟨hst, hb, d, hsel, hf⟩

/-- Settles O14. -/
theorem checksumMismatchReportsFedByte : Obligations.ChecksumMismatchReportsFedByte :=
  fun _ _ hv hst hb => (FeedEffect.wrongChecksum hst hb).exec_rowInstr (row := .cksMismatch) hv ⟨hst, hb⟩

/-- Settles O15. -/
theorem endMarkerCompletes : Obligations.EndMarkerCompletes :=
  fun _ _ _ hv hst hsel hb => (FeedEffect.endMarker hst hsel hb).exec_rowInstr (row := .eomMatch) hv ⟨hst, hb⟩

/-- Settles O16. -/
theorem wrongEndMarkerReportsFedByte : Obligations.WrongEndMarkerReportsFedByte :=
  fun _ _ hv hst hb => (FeedEffect.wrongEndMarker hst hb).exec_rowInstr (row := .eomMismatch) hv ⟨hst, hb⟩

/-- Settles O17. -/
theorem illegalStatusRecovers : Obligations.IllegalStatusRecovers :=
  fun _ _ k hv hst => (FeedEffect.illegalStatus hst).exec_rowInstr (row := .default) hv ⟨k, hst⟩

end Sys2Proof.Machine

/-! SUPPORT. The Notification Channel (43_notification.md). First the event of a result and the deliveries of an event; then
that every output of a feed, alone or in a run, is a `feedOutput`; then the statements. -/

namespace Sys2Proof.Machine

/-! ### The event of a result -/

theorem eventOf_eq_none_iff {r : Result} : eventOf r = none ↔ r = .parsing := by
  cases r <;> simp [eventOf]

theorem eventOf_eq_completed_iff {r : Result} {i : Byte} {p : List Byte} :
    eventOf r = some (.completed i p) ↔ r = .completed i p := by
  cases r <;> simp [eventOf]

theorem eventOf_eq_error_iff {r : Result} {k : ErrKind} {o : Option Byte} :
    eventOf r = some (.error k o) ↔ r = .error k o := by
  cases r <;> simp [eventOf]

/-! ### The deliveries of an event -/

/-- Whatever the free value, the observers served are all the subscribed ones, each once (R103). -/
theorem deliver_some_map_fst_perm (k n : Nat) (e : Event) :
    ((deliver k n (some e)).map Prod.fst).Perm (List.range n) := by
  have hfst : (deliver k n (some e)).map Prod.fst = observerOrder k n := by
    simp [deliver, Function.comp_def]
  exact hfst ▸ observerOrder_perm k n

theorem snd_of_mem_deliver_some {k n : Nat} {e : Event} {x : Nat × Event} (hx : x ∈ deliver k n (some e)) : x.2 = e := by
  obtain ⟨o, -, rfl⟩ := List.mem_map.1 hx
  rfl

/-! ### The outputs of a feed and of a run -/

/-- A feed that answers puts out one result, with that result's event and its deliveries to the observers (R71, R100). -/
theorem exec_feed_out {s t : State} {b : Byte} (h : exec (.feed b) s = .next t) :
    ∃ r, t.out = feedOutput s.free s.observers r := by
  obtain ⟨r, u, he, rfl⟩ := exec_feed_effect h
  obtain ⟨-, hobs, -, hfree⟩ := he.frame
  exact ⟨r, by rw [finishFeed_out, hobs, hfree]⟩

/-- A run that answers is a feed that answers, followed by a run from the state it leaves. -/
theorem feedAll_cons_eq_some {s t : State} {b : Byte} {bs : List Byte} {outs : List Output} :
    feedAll s (b :: bs) = some (t, outs) ↔
      ∃ u rest, exec (.feed b) s = .next u ∧ feedAll u bs = some (t, rest) ∧ outs = u.out :: rest := by
  rw [feedAll]
  cases exec (.feed b) s with
  | next u => simp [@eq_comm _ outs]
  | fault e => simp
  | refused e => simp

theorem feedAll_length {s t : State} {bs : List Byte} {outs : List Output} (h : feedAll s bs = some (t, outs)) :
    outs.length = bs.length := by
  induction bs generalizing s outs with
  | nil => cases h; rfl
  | cons b bs ih =>
    obtain ⟨u, rest, -, hrest, rfl⟩ := feedAll_cons_eq_some.1 h
    simp [ih hrest]

/-- Every output of a run is the output of one of its feeds. -/
theorem exists_exec_feed_of_mem_feedAll {s t : State} {bs : List Byte} {outs : List Output} {o : Output}
    (h : feedAll s bs = some (t, outs)) (ho : o ∈ outs) : ∃ b v u, exec (.feed b) v = .next u ∧ o = u.out := by
  induction bs generalizing s outs with
  | nil => cases h; cases ho
  | cons b bs ih =>
    obtain ⟨u, rest, hu, hrest, rfl⟩ := feedAll_cons_eq_some.1 h
    rcases List.mem_cons.1 ho with rfl | ho
    · exact ⟨b, s, u, hu, rfl⟩
    · exact ih hrest ho

/-- In a run, the outputs with an event are the ones with a terminal result (R100). -/
theorem event_isSome_of_mem_feedAll {s t : State} {bs : List Byte} {outs : List Output} {o : Output}
    (h : feedAll s bs = some (t, outs)) (ho : o ∈ outs) : o.event.isSome = decide (o.result ≠ some .parsing) := by
  obtain ⟨b, v, u, hu, rfl⟩ := exists_exec_feed_of_mem_feedAll h ho
  obtain ⟨r, hout⟩ := exec_feed_out hu
  rw [hout, Bool.eq_iff_iff]
  simp [Option.isSome_iff_ne_none, eventOf_eq_none_iff]

/-! ### Results, events and observers -/

/-- Settles O52: `eventOf` keeps each result's information, and the two filters of a run's outputs agree on every output. -/
theorem everyResultFiresItsEvent : Obligations.EveryResultFiresItsEvent := by
  refine ⟨fun s t b ht => ?_, fun s t bs outs hrun => ⟨feedAll_length hrun, ?_⟩⟩
  · obtain ⟨r, hout⟩ := exec_feed_out ht
    simp only [hout, feedOutput_result, feedOutput_event, Option.some.injEq]
    exact ⟨fun _ _ => eventOf_eq_completed_iff.symm, fun _ _ => eventOf_eq_error_iff.symm, eventOf_eq_none_iff.symm⟩
  · exact congrArg List.length (List.filter_congr fun _ ho => event_isSome_of_mem_feedAll hrun ho)

/-- Settles O53: the deliveries of a feed are those of its event, which the delivery order hands to every observer once. -/
theorem everyObserverSeesEachEventOnce : Obligations.EveryObserverSeesEachEventOnce := by
  intro s t b ht
  obtain ⟨r, hout⟩ := exec_feed_out ht
  simp only [hout, feedOutput_event, feedOutput_deliveries]
  refine ⟨fun hnone => ?_, fun e he => ?_⟩
  · rw [hnone, deliver]
  · rw [he]
    exact ⟨deliver_some_map_fst_perm _ _ e, fun _ hx => snd_of_mem_deliver_some hx⟩

end Sys2Proof.Machine

/-! SUPPORT. The errors of a feed (60_exceptions.md). First the row that raises each error kind, and that a feed answers the
error exactly where this row's predicate holds; then the one state that error entry leaves; then the statements. -/

namespace Sys2Proof.Machine

/-! ### When a feed raises an error -/

/-- The row of R50 that raises an error kind (R106 to R110). -/
def errorRow : ErrKind → Row
  | .syncError => .idleSync
  | .missingId => .idMiss
  | .checksum => .cksMismatch
  | .missingEom => .eomMismatch
  | .formatError => .default

/-- Only the error's own row raises it. -/
theorem FeedEffect.rowHolds_errorRow {s u : State} {b : Byte} {k : ErrKind} {o : Option Byte}
    (he : FeedEffect s b (.error k o) u) : rowHolds s.view b (errorRow k) := by
  cases he with
  | stray hst hb | unknownId hst hb | wrongChecksum hst hb | wrongEndMarker hst hb => exact ⟨hst, hb⟩
  | illegalStatus hst => exact ⟨_, hst⟩

/-- The error's own row raises it wherever it is selected: no descriptor and no room is asked for. -/
theorem exists_feedEffect_of_errorRow {s : State} {b : Byte} {k : ErrKind} (h : rowHolds s.view b (errorRow k)) :
    ∃ o u, FeedEffect s b (.error k o) u := by
  cases k with
  | syncError => exact ⟨_, _, .stray h.1 h.2⟩
  | missingId => exact ⟨_, _, .unknownId h.1 h.2⟩
  | checksum => exact ⟨_, _, .wrongChecksum h.1 h.2⟩
  | missingEom => exact ⟨_, _, .wrongEndMarker h.1 h.2⟩
  | formatError =>
    obtain ⟨_, hst⟩ := h
    exact ⟨_, _, .illegalStatus hst⟩

/-- A feed that answers had a valid configuration (R23). -/
theorem configValid_of_exec_feed {s t : State} {b : Byte} (ht : exec (.feed b) s = .next t) :
    configValid s.cfg = true := by
  obtain ⟨_, hrow⟩ := exec_feed_next ht
  exact (execRow_next.1 hrow).1

theorem exec_feed_error {s t : State} {b : Byte} {k : ErrKind} {o : Option Byte} (ht : exec (.feed b) s = .next t)
    (hres : t.out.result = some (.error k o)) :
    ∃ u, FeedEffect s b (.error k o) u ∧ t = finishFeed (.error k o) u := by
  obtain ⟨r, u, he, rfl⟩ := exec_feed_effect ht
  obtain rfl : r = .error k o := Option.some.inj hres
  exact ⟨u, he, rfl⟩

/-- A feed that answers reports an error of kind `k` exactly where the row of `k` is selected. -/
theorem exec_feed_error_iff {s t : State} {b : Byte} {k : ErrKind} (ht : exec (.feed b) s = .next t) :
    (∃ o, t.out.result = some (.error k o)) ↔ rowHolds s.view b (errorRow k) := by
  constructor
  · rintro ⟨o, hres⟩
    obtain ⟨u, he, -⟩ := exec_feed_error ht hres
    exact he.rowHolds_errorRow
  · intro hrow
    obtain ⟨o, u, he⟩ := exists_feedEffect_of_errorRow hrow
    cases (he.exec_feed (configValid_of_exec_feed ht)).symm.trans ht
    exact ⟨o, rfl⟩

/-- In `Idle` the only error is the one of a stray byte (R106). -/
theorem eq_syncError_of_idle {v : View} {b : Byte} {k : ErrKind} (hst : v.status = .idle)
    (hrow : rowHolds v b (errorRow k)) : k = .syncError := by
  cases k with
  | syncError => rfl
  | missingId | checksum | missingEom => exact absurd (hst.symm.trans hrow.1) nofun
  | formatError =>
    obtain ⟨_, hk⟩ := hrow
    cases hst.symm.trans hk

/-- Which byte a reported error carries: the fed one or none, by its kind (R112). -/
theorem exec_feed_error_observed {s t : State} {b : Byte} {k : ErrKind} {o : Option Byte}
    (ht : exec (.feed b) s = .next t) (hres : t.out.result = some (.error k o)) :
    o = if k = .checksum ∨ k = .missingEom ∨ k = .formatError then some b else none := by
  obtain ⟨_, he, -⟩ := exec_feed_error ht hres
  exact he.observed

/-! ### What error entry leaves -/

/-- The session that error entry leaves: in `Idle`, with nothing selected (R111), or with the selection as it was where the
error is a stray byte in `Idle` (R73). -/
def afterError (s : State) : State :=
  { s with status := .idle, sel := if s.status = .idle then s.sel else none }

theorem afterError_of_idle {s : State} (hst : s.status = .idle) : afterError s = s := by
  rw [afterError, if_pos hst, ← hst]

theorem afterError_of_ne_idle {s : State} (hst : s.status ≠ .idle) : afterError s = atRest s := by
  rw [afterError, if_neg hst, atRest]

theorem FeedEffect.eq_afterError {s u : State} {b : Byte} {k : ErrKind} {o : Option Byte}
    (he : FeedEffect s b (.error k o) u) : u = afterError s := by
  cases he with
  | stray hst => exact (afterError_of_idle hst).symm
  | unknownId hst | wrongChecksum hst | wrongEndMarker hst | illegalStatus hst =>
    exact (afterError_of_ne_idle (by simp [hst])).symm

/-- A feed that reports an error ends in the one state that the error and the state before decide. -/
theorem exec_feed_error_next {s t : State} {b : Byte} {k : ErrKind} {o : Option Byte}
    (ht : exec (.feed b) s = .next t) (hres : t.out.result = some (.error k o)) :
    t = finishFeed (.error k o) (afterError s) := by
  obtain ⟨u, he, rfl⟩ := exec_feed_error ht hres
  rw [he.eq_afterError]

theorem status_of_exec_feed_error {s t : State} {b : Byte} {k : ErrKind} {o : Option Byte}
    (ht : exec (.feed b) s = .next t) (hres : t.out.result = some (.error k o)) : t.status = .idle := by
  rw [exec_feed_error_next ht hres]
  rfl

/-- A message on its way has a descriptor (R20 (ii)). -/
theorem Inv.exists_sel {s : State} (h : Inv s)
    (hst : s.status = .waitData ∨ s.status = .waitCheckSum ∨ s.status = .waitEoM) : ∃ d, s.sel = some d :=
  Option.isSome_iff_exists.1 (h.selected_iff.2 hst)

/-! ### The five errors (R106 to R110) -/

/-- Settles O33: the row of `SyncError` is the stray byte's, and the only error row of `Idle`, where every error ends. -/
theorem syncErrorExactlyOnStrayBytes : Obligations.SyncErrorExactlyOnStrayBytes := by
  refine ⟨fun s t b ht => ⟨exec_feed_error_iff ht, fun o hres => ?kept⟩, fun s t u b c k j o p ht hres _ hu herr => ?alone⟩
  case kept =>
    obtain ⟨hst, -⟩ : s.status = .idle ∧ b ≠ s.cfg.start := (exec_feed_error_iff ht).1 ⟨o, hres⟩
    have ho : o = none := by simpa using exec_feed_error_observed ht hres
    have hnext := exec_feed_error_next ht hres
    rw [afterError_of_idle hst] at hnext
    subst hnext
    exact ⟨ho, hst, rfl, rfl, rfl, rfl⟩
  case alone =>
    exact eq_syncError_of_idle (v := t.view) (status_of_exec_feed_error ht hres) ((exec_feed_error_iff hu).1 ⟨p, herr⟩)

/-- Settles O34: the row of `MissingId` is the identifier miss. -/
theorem missingIdExactlyOnUnknownIdentifier : Obligations.MissingIdExactlyOnUnknownIdentifier := by
  intro s t b ht
  refine ⟨exec_feed_error_iff ht, fun o hres => ⟨?_, status_of_exec_feed_error ht hres⟩⟩
  simpa using exec_feed_error_observed ht hres

/-- Settles O35: the row of `Checksum` is the mismatch, and only a descriptor with checksum leads to `WaitCheckSum`. -/
theorem checksumErrorExactlyOnMismatch : Obligations.ChecksumErrorExactlyOnMismatch := by
  intro s t b ht
  refine ⟨exec_feed_error_iff ht, fun o hres => ⟨?_, status_of_exec_feed_error ht hres, fun h => ?checks⟩⟩
  · simpa using exec_feed_error_observed ht hres
  case checks =>
    obtain ⟨hst, -⟩ : s.status = .waitCheckSum ∧ b ≠ s.cks := (exec_feed_error_iff ht).1 ⟨o, hres⟩
    obtain ⟨d, hsel⟩ := h.exists_sel (.inr (.inl hst))
    exact ⟨d, hsel, h.checksum_wanted d hst hsel⟩

/-- Settles O36: the row of `MissingEom` is the wrong end marker, and a `Sized` message with checksum never waits for one. -/
theorem missingEomExactlyOnWrongEndMarker : Obligations.MissingEomExactlyOnWrongEndMarker := by
  intro s t b ht
  refine ⟨exec_feed_error_iff ht, fun o hres => ⟨?_, status_of_exec_feed_error ht hres, fun h => ?plain⟩⟩
  · simpa using exec_feed_error_observed ht hres
  case plain =>
    obtain ⟨hst, -⟩ : s.status = .waitEoM ∧ b ≠ s.cfg.stop := (exec_feed_error_iff ht).1 ⟨o, hres⟩
    obtain ⟨⟨i, f, c⟩, hsel⟩ := h.exists_sel (.inr (.inr hst))
    refine ⟨_, hsel, fun n (hf : f = .sized n) => ?_⟩
    exact h.eom_sized_plain i n c hst (hf ▸ hsel)

/-- Settles O37: the row of `FormatError` asks for a status that the invariant excludes. -/
theorem formatErrorNeverFromLegalStatus : Obligations.FormatErrorNeverFromLegalStatus := by
  intro s t b ht
  refine ⟨exec_feed_error_iff ht, fun o hres => ⟨?_, status_of_exec_feed_error ht hres⟩, fun h o hres => ?legal⟩
  · simpa using exec_feed_error_observed ht hres
  case legal =>
    obtain ⟨k, hk⟩ : ∃ k, s.status = .other k := (exec_feed_error_iff ht).1 ⟨o, hres⟩
    exact h.status_legal k hk

/-! ### Error entry and the return from it (R111, R116) -/

/-- Settles O38: the state after an error is `afterError` with the outputs written, field by field. -/
theorem errorEntryWritesNothingElse : Obligations.ErrorEntryWritesNothingElse := by
  intro s t b k o ht hres
  have hnext := exec_feed_error_next ht hres
  have hidle (hst : s.status = .idle) : t.sel = s.sel := by
    rw [hnext, afterError_of_idle hst, finishFeed_sel]
  have hout (hst : s.status ≠ .idle) : t.sel = none := by
    rw [hnext, afterError_of_ne_idle hst]
    rfl
  refine ⟨?_, hidle, hout, fun h => ?_⟩
  · subst hnext
    rfl
  · by_cases hst : s.status = .idle
    · exact (hidle hst).trans (h.sel_none (.inl hst))
    · exact hout hst

/-- Settles O39: every error ends in `Idle` under the same valid configuration, where the start marker opens a message. -/
theorem everyErrorResynchronises : Obligations.EveryErrorResynchronises := by
  intro s t b k o ht hres
  have hcfg : t.cfg = s.cfg := (feedKeepsConfiguration s t b ht).1
  have hv : configValid t.cfg = true := hcfg ▸ configValid_of_exec_feed ht
  have hopened := FeedEffect.opened (status_of_exec_feed_error ht hres) rfl
  exact ⟨_, hopened.exec_feed hv, rfl, rfl, rfl, rfl, rfl⟩

end Sys2Proof.Machine

/-! SUPPORT. Reset and hazards (70_reset_and_hazards.md). First the start marker outside `Idle` and a message that is never
terminated; then which phase a step runs in; then what the setup acts do, and where they stop. -/

namespace Sys2Proof.Machine

/-! ### The start marker outside `Idle` -/

/-- The state under another start marker. -/
def withStart (a : Byte) (s : State) : State := { s with cfg := { s.cfg with start := a } }

/-- Outside `Idle` no effect of a feed reads the start marker (R90 (c)). -/
theorem FeedEffect.withStart {s u : State} {b : Byte} {r : Result} (he : FeedEffect s b r u) (hst : s.status ≠ .idle)
    (a : Byte) : FeedEffect (withStart a s) b r (withStart a u) := by
  cases he with
  | opened hidle _ | stray hidle _ => exact absurd hidle hst
  | identified hst hd => exact .identified hst hd
  | unknownId hst hd => exact .unknownId hst hd
  | sizedMore hst hsel hf hrem hfit => exact .sizedMore hst hsel hf hrem hfit
  | sizedLast hst hsel hf hrem hfit => exact .sizedLast hst hsel hf hrem hfit
  | boundedMore hst hsel hf hb hfit => exact .boundedMore hst hsel hf hb hfit
  | boundedLast hst hsel hf hb hfit => exact .boundedLast hst hsel hf hb hfit
  | checksumSized hst hsel hf hb => exact .checksumSized hst hsel hf hb
  | checksumBounded hst hsel hf hb => exact .checksumBounded hst hsel hf hb
  | wrongChecksum hst hb => exact .wrongChecksum hst hb
  | endMarker hst hsel hb => exact .endMarker hst hsel hb
  | wrongEndMarker hst hb => exact .wrongEndMarker hst hb
  | illegalStatus hst => exact .illegalStatus hst

theorem afterPayload_ne_waitId (d : Desc) : afterPayload d ≠ .waitId := by
  unfold afterPayload
  split <;> nofun

/-- Only a feed in `Idle` opens a message (R72). -/
theorem FeedEffect.status_ne_waitId {s u : State} {b : Byte} {r : Result} (he : FeedEffect s b r u)
    (hst : s.status ≠ .idle) : u.status ≠ .waitId := by
  cases he with
  | opened hidle _ | stray hidle _ => exact absurd hidle hst
  | sizedMore hdata | boundedMore hdata => simp [hdata]
  | sizedLast | boundedLast => exact afterPayload_ne_waitId _
  | identified | unknownId | checksumSized | checksumBounded | wrongChecksum | endMarker | wrongEndMarker
  | illegalStatus => exact nofun

/-- Settles O47: the effect of the feed is an effect under the other start marker, and it begins no message. -/
theorem startMarkerIsDataInsideMessage : Obligations.StartMarkerIsDataInsideMessage := by
  intro s t b a hst ht
  have hv : configValid s.cfg = true := configValid_of_exec_feed ht
  obtain ⟨r, u, he, rfl⟩ := exec_feed_effect ht
  exact ⟨(he.withStart hst a).exec_feed hv, he.status_ne_waitId hst⟩

/-! ### A message that is never terminated -/

/-- The checksum of a payload begins with its first byte (R91). -/
theorem checksum_cons (b : Byte) (p : List Byte) : checksum (b :: p) = b + checksum p := by
  rw [checksum, checksum, List.map_cons, List.sum_cons, BitVec.ofNat_add, BitVec.ofNat_toNat, BitVec.setWidth_eq]

/-- Settles O50, by induction on the bytes: a byte other than the end marker leaves a state of the same message, one byte
longer, from which the rest is fed. -/
theorem unterminatedMessageKeepsGrowing : Obligations.UnterminatedMessageKeepsGrowing := by
  intro s d bs hv hst hsel hf hstop hroom
  induction bs generalizing s with
  | nil => exact ⟨s, [], rfl, rfl, hst, rfl, rfl, by simp, by simp⟩
  | cons b bs ih =>
    obtain ⟨hb, hbs⟩ := List.ne_and_not_mem_of_not_mem_cons hstop
    have hfit : payloadFits s = true := withinBound_mono (by simp) hroom
    have hfeed := (FeedEffect.boundedMore hst hsel hf hb.symm hfit).exec_feed hv
    have hroom' : roomFor s ((accumulate b s).payload.length + bs.length) := by
      simpa [Nat.add_assoc, Nat.add_comm 1] using hroom
    obtain ⟨t, outs, hrun, hres, htst, htsel, htrem, htpay, htcks⟩ :=
      ih (finishFeed .parsing (accumulate b s)) hv hst hsel hbs hroom'
    refine ⟨t, feedOutput s.free s.observers .parsing :: outs, ?_, ?_, htst, htsel, htrem, ?_, ?_⟩
    · simp only [feedAll, hfeed, hrun, Option.map_some, finishFeed_out, accumulate_free, accumulate_observers]
    · rw [List.length_cons, List.replicate_succ, ← hres]
      rfl
    · simpa using htpay
    · rw [htcks, finishFeed_cks, accumulate_of_sel hsel, checksum_cons, ← BitVec.add_assoc]
      split <;> rfl

/-! ### The two phases -/

/-- Parsing goes on from `s` to `t`, under the same configuration and for the same observers (R119). -/
def KeepsParsing (s t : State) : Prop := t.started = true ∧ t.cfg = s.cfg ∧ t.observers = s.observers

theorem FeedEffect.keepsParsing {s u : State} {b : Byte} {r : Result} (he : FeedEffect s b r u) :
    KeepsParsing s (finishFeed r u) := by
  obtain ⟨hcfg, hobs, -, -⟩ := he.frame
  exact ⟨rfl, hcfg, hobs⟩

/-- During parsing a table write has no meaning (R37). -/
theorem inSetup_of_started {s : State} (hs : s.started = true) (o : StepOut) :
    inSetup s o = .refused .tableWriteWhileParsing := by
  rw [inSetup, if_pos hs]

/-- Every outcome of a registration is a table write. -/
theorem exec_registerInstr_of_started {s : State} (hs : s.started = true) (c : RegCase) (r : Req) :
    exec (registerInstr c r) s = .refused .tableWriteWhileParsing := by
  cases c <;> exact inSetup_of_started hs _

theorem exec_build_of_started {s : State} (hs : s.started = true) (rs : List Req) :
    exec (.build rs) s = .refused .tableWriteWhileParsing :=
  inSetup_of_started hs _

/-- A stream byte that answers had the effect of a feed (R50). -/
theorem runDecoded_decodeByte_effect {s t : State} {v : View} {b : Byte}
    (ht : runDecoded (decodeByte v b) s = .next t) : ∃ r u, FeedEffect s b r u ∧ t = finishFeed r u := by
  unfold decodeByte at ht
  split at ht
  next row _ => exact execRow_effect ((exec_rowInstr row b s).symm.trans ht)
  next => cases ht

/-- During parsing a clock edge keeps it on, or carries `rst` (R61, R120). -/
theorem runDecoded_decodeCycle_of_started {s t : State} {v : View} {p : Pins} (hs : s.started = true)
    (ht : runDecoded (decodeCycle v p) s = .next t) : KeepsParsing s t ∨ decodeCycle v p = .instr .reset := by
  unfold decodeCycle at ht ⊢
  split_ifs at ht ⊢
  · exact .inr rfl
  · cases ht
  · cases (exec_registerInstr_of_started hs _ _).symm.trans ht
  · obtain ⟨r, u, he, rfl⟩ := exec_feed_effect ht
    exact .inl he.keepsParsing
  · cases ht
    exact .inl ⟨hs, rfl, rfl⟩

/-- During parsing an input that answers keeps it on, or decodes to RESET (R119), in whatever view it is decoded. -/
theorem runDecoded_decode_of_started {s t : State} {v : View} {i : Input} (hs : s.started = true)
    (ht : runDecoded (decode v i) s = .next t) : KeepsParsing s t ∨ decode v i = .instr .reset := by
  cases i with
  | byte b =>
    obtain ⟨r, u, he, rfl⟩ := runDecoded_decodeByte_effect ht
    exact .inl he.keepsParsing
  | register r => cases (exec_registerInstr_of_started hs _ r).symm.trans ht
  | lookup id => cases ht; exact .inl ⟨hs, rfl, rfl⟩
  | build rs => cases (exec_build_of_started hs rs).symm.trans ht
  | reset => exact .inr rfl
  | markers a z =>
    obtain ⟨hsetup, -⟩ | ⟨-, -, -, rfl⟩ := fixMarkers_next.1 ht
    · cases hs.symm.trans hsetup
    · exact .inl ⟨hs, rfl, rfl⟩
  | subscribe =>
    obtain ⟨hsetup, -⟩ := subscribe_next.1 ht
    cases hs.symm.trans hsetup
  | overlap bs => cases ht
  | cycle p => exact runDecoded_decodeCycle_of_started hs ht

/-- Settles O54: the input taken and the read port touch neither the phase nor the configuration nor the session. -/
theorem tableIsClosedDuringParsing : Obligations.TableIsClosedDuringParsing := by
  refine ⟨fun s i f c rs hs => ⟨exec_registerInstr_of_started hs .ok ⟨i, f, c⟩,
    exec_registerInstr_of_started hs .sizeNotSet ⟨i, f, c⟩, exec_registerInstr_of_started hs .idAliasing ⟨i, f, c⟩,
    exec_registerInstr_of_started hs .tooLong ⟨i, f, c⟩, exec_build_of_started hs rs⟩, fun s t hs ht => ?_⟩
  obtain ⟨-, rfl⟩ | ⟨i, rest, u, hin, hu, rfl⟩ := step_next.1 ht
  · exact .inl ⟨hs, rfl, rfl⟩
  · rw [readPort_started, readPort_cfg, readPort_observers, readPort_status, readPort_sel]
    have hrest : ({ s with input := rest } : State).started = true := hs
    obtain hkept | hd := runDecoded_decode_of_started hrest hu
    · exact .inl hkept
    · rw [hd] at hu
      cases hu
      exact .inr ⟨⟨i, rest, hin, hd⟩, rfl, rfl, rfl, rfl⟩

/-- Settles O26. -/
theorem resetStartsNewInstance : Obligations.ResetStartsNewInstance := fun _ => rfl

/-! ### The setup acts -/

/-- An input that presents no read address does what it decodes to. -/
theorem step_of_no_address {s : State} {i : Input} {rest : List Input} (hin : s.input = i :: rest)
    (ha : readAddress i = none) : step s = runDecoded (decode s.view i) { s with input := rest } := by
  rw [step_of_input hin, withReadPort_of_no_address ha]

/-- During parsing the markers are held constant (R124). -/
theorem fixMarkers_of_ne {s : State} {a z : Byte} (hs : s.started = true) (h : a ≠ s.cfg.start ∨ z ≠ s.cfg.stop) :
    fixMarkers a z s = .refused .markerChangeWhileParsing := by
  have hne : ¬(a == s.cfg.start && z == s.cfg.stop) = true := by
    simpa only [Bool.and_eq_true, beq_iff_eq, not_and_or] using h
  rw [fixMarkers, if_pos hs, if_neg hne]

/-- After the first feed nobody subscribes (log entry 9). -/
theorem subscribe_of_started {s : State} (hs : s.started = true) : subscribe s = .refused .subscribeWhileParsing := by
  rw [subscribe, if_pos hs]

/-- Settles O56: each clause is one setup act, run with its input taken. -/
theorem setupActsAndTheirLimits : Obligations.SetupActsAndTheirLimits := by
  refine ⟨fun s a z rest hin => ?markers, fun s rest hin => ?subscribe, fun s bs rest hin => ?overlap⟩
  case markers =>
    rw [step_of_no_address hin rfl]
    exact ⟨fun hs => fixMarkers_next.2 (.inl ⟨hs, rfl⟩), fun hs ha hz => fixMarkers_next.2 (.inr ⟨hs, ha, hz, rfl⟩),
      fun hs h => fixMarkers_of_ne hs h⟩
  case subscribe =>
    rw [step_of_no_address hin rfl]
    exact ⟨fun hs => subscribe_next.2 ⟨hs, rfl⟩, fun hs => subscribe_of_started hs⟩
  case overlap => exact step_of_refused hin rfl

end Sys2Proof.Machine
